-- ==== Sys2Proof/Word.lean ====
section
/-! DEFINITION. The word types of the Q40 and their plainest arithmetic (R5, R12, R131, R220). -/
namespace Sys2Proof

/-- A scalar register, address or control register (R107). -/
abbrev W64 := BitVec 64
/-- An instruction word (R104). -/
abbrev Word := BitVec 32
/-- One byte of memory. -/
abbrev Byte := BitVec 8
/-- A vector register (R107). -/
abbrev VReg := BitVec 512

/-- A finite table from numbers to values, sorted by key; an unlisted key has the value the reader names. -/
abbrev Tbl (α : Type) := List (Nat × α)

/-- The value at key `k`, or `d` where the table lists none. -/
def Tbl.get (d : α) : Tbl α → Nat → α
  | [], _ => d
  | (k', v) :: r, k => if k' = k then v else Tbl.get d r k

/-- The table with `v` at key `k`. -/
def Tbl.put : Tbl α → Nat → α → Tbl α
  | [], k, v => [(k, v)]
  | (k', v') :: r, k, v =>
    if k < k' then (k, v) :: (k', v') :: r
    else if k = k' then (k, v) :: r
    else (k', v') :: Tbl.put r k v

/-- The table without key `k`. -/
def Tbl.del (t : Tbl α) (k : Nat) : Tbl α := t.filter (fun p => p.1 ≠ k)

end Sys2Proof
end

