-- ==== Sys2Proof/Config.lean ====
section
/-! DEFINITION. What the spec leaves open: free values without a body, so that nothing can be proved of them
but their type (notes/assumptions 5 to 10). Each is applied to a counter of the state, or to the operands it depends on. -/
namespace Sys2Proof.Config

/-- Which of several enabled steps comes next (log 5). -/
opaque pick : Nat → Nat
/-- How many GTIME ticks pass after a step (log 5). -/
opaque ticks : Nat → Nat
/-- Which of the values that a table entry has had since the last invalidation a translation uses (R167, log 21). -/
opaque entry : Nat → Nat
/-- A byte whose contents the spec calls undefined: generation, address (log 6). -/
opaque freeByte : Nat → Nat → Byte
/-- Whether fetch executes the word it kept rather than the changed one, before an acquire (R106, log 7). -/
opaque keepOld : Nat → Bool
/-- Whether an operation whose outcome the spec leaves open was performed (R306, log 8). -/
opaque performed : Nat → Bool
/-- Whether the next flit that comes in fails authentication (R63, log 13). -/
opaque authFails : Nat → Bool
/-- SHA-256 (R73, log 9). -/
opaque sha256 : List Byte → BitVec 256
/-- Whether an ECDSA P-256 signature over a hash is one of the key: hash, signature, key (R73, log 9). -/
opaque ecdsaP256 : BitVec 256 → List Byte → List Byte → Bool
/-- The boot ROM (R73, R75, log 9). -/
opaque bootRom : List Byte
/-- The manifest in Tantalum's flash (R73, log 9). -/
opaque manifest : List Byte
/-- The manifest's signature (R73, log 9). -/
opaque manifestSignature : List Byte
/-- The key that signed it (R73, log 9). -/
opaque manifestKey : List Byte
/-- The manifest's security version (R73, log 9). -/
opaque manifestVersion : Nat
/-- The hashes that the manifest lists, in its order (R73, log 9). -/
opaque manifestHashes : List (BitVec 256)
/-- The firmware images in flash, in the manifest's order; none for an absent one (R73, R74, log 9). -/
opaque flash : Nat → Option (List Byte)
/-- The fused hash of the signing key (R73, log 9). -/
opaque fusedKeyHash : BitVec 256
/-- The fused minimum of the security version (R73, log 9). -/
opaque fusedMinVersion : Nat
/-- The certificate of the SPDM responder (R75, log 9). -/
opaque certificate : List Byte
/-- The payload of an SPDM response that the spec does not give: requester, serial number (R75, log 9). -/
opaque spdm : Nat → Nat → List Byte
/-- Which line a full cache gives up: L1 or L2 (R161, R174, log 22, 23). -/
opaque victim : Nat → Nat
/-- The lines of memory whose data hold an uncorrectable error after a step (R374, log 86). -/
opaque badLines : Nat → List Nat
/-- Temperature of a physical core over a control interval, in degrees (R412, log 10). -/
opaque temperature : Nat → Nat → Nat
/-- Mean package power over a control interval, in watts (R412, log 10). -/
opaque power : Nat → Nat

end Sys2Proof.Config
end

