-- ==== Sys2Proof/Syntax.lean ====
section
/-! DEFINITION. The steps of the Q40, one constructor of `Instr` per row of the opcode table: the 199 instruction
words of R112 to R122, and the events of homes, engines, dispatchers, the host and the power controller, each whole
and indivisible, with the data they carry. Contexts are named by ctxKey = 8 * coreKey + context and cores by
coreKey = 768 * die + 192 * cluster + logical core; a node is 4096 * die + endpoint (R62). -/
namespace Sys2Proof

/-- The message classes of R62 and R64. -/
inductive Cls where
  | req | rsp | wrb | amo | msg | cmt | ctl | mgt
  deriving DecidableEq, Repr

/-- A line that can be locked: its home's node and its address at that home (R323). -/
structure LKey where
  home : Nat
  addr : Nat
  deriving DecidableEq, Repr

/-- An entry of a lock queue: the context, the serial number of its entry, its hold logarithm and interface (R325, R327). -/
structure Waiter where
  xk : Nat
  eid : Nat
  hold : Nat
  vi : Nat
  line : W64
  deriving DecidableEq, Repr

/-- The kinds of claim (R432); `group` is the COMMIT claim of the primary tile of a commit group, with the header and the expected version of each secondary tile (R439). -/
inductive ClaimKind where
  | seal | commit | group (secs : List (W64 × BitVec 32)) | void
  deriving DecidableEq, Repr

/-- A copy of a unit: interface, launch, linear index, copy index (R13). -/
structure URef where
  vi : Nat
  lid : Nat
  idx : Nat
  copy : Nat
  deriving DecidableEq, Repr

/-- What a request asks its home to do. -/
inductive Act where
  | load
  | store
  | ldacq (scope : Nat)
  | strel (scope : Nat) (vismax : Nat)
  | atomic (op : Nat) (v c : W64)
  | pref
  | claimq
  | waddr (cmp : W64)
  | rwi (n : Nat)
  | mkfull (len : Nat)
  | mkempty (len : Nat)
  | festat
  | hgive (holder : Nat)
  | hrev
  | hchk
  | lock (try_ : Bool) (hold : Nat) (dlen : Bool) (holds : Bool) (eid : Nat)
  | lkq
  | watch (re : Bool) (pc a0 mask : W64) (len : Nat)
  | rpin (ver : BitVec 32)
  | pin (u : URef) (slot : Nat) (ver : BitVec 32)
  | claim (kind : ClaimKind) (u : URef) (x y z : Nat) (expv : BitVec 32)
  | gclaim (u : URef) (x y z : Nat) (expv : BitVec 32) (slot by_ : Nat)
  | stream (u : URef) (slot line : Nat)
  | sgrant (u : URef) (x y z slot : Nat)
  | publish (u : URef) (x y z slot : Nat)
  | unpin (bufB : Bool)
  | unclaim (u : URef) (x y z : Nat)
  | wkq (level id : Nat)
  | cpread (dev : Option Nat)
  | cpwrite (dev : Option Nat) (mark : Bool)
  deriving DecidableEq, Repr

/-- A request on its way to, or at, the home of its address (R62, R163, R171, R287, R306). `perm`: what the page allows of reads (1)
and writes (2), as the translation found it (R167). -/
structure Req where
  src : Nat := 0
  host : Bool := false
  op : Nat := 0
  part : Nat := 0
  vi : Nat := 0
  act : Act := .load
  va : W64 := 0
  n : Nat := 0
  data : List Byte := []
  pa : Nat := 0
  home : Nat := 0
  lease : Nat := 0
  cached : Bool := false
  refill : Bool := false
  stale : Bool := false
  seq : Nat := 0
  perm : Nat := 3
  deriving DecidableEq, Repr

/-- A refusal kept in program order: the request, the trap code and the fault token, 0 for none (R171, R377, R381). -/
structure Refused where
  q : Req
  code : Nat
  token : Nat
  deriving DecidableEq, Repr

/-- A task: the core it goes to, its interface, PC, arguments x14 to x19, the caller and its reply cell, 0 for none (R354, R355). -/
structure Task where
  ck : Nat
  vi : Nat
  pc : W64
  args : List W64
  caller : Nat := 0
  cell : W64 := 0
  deriving DecidableEq, Repr

/-- A host active message (R58, R59). -/
structure HostMsg where
  q : Nat
  serial : Nat
  ck : Nat
  vi : Nat
  pc : W64
  a0 : W64
  a1 : W64
  deriving DecidableEq, Repr

/-- A handler message (R68, R69); `again`: it has been refused, and its sender offers it once more. -/
structure HandMsg where
  ck : Nat
  vi : Nat
  pc : W64
  args : List W64
  sender : W64
  again : Bool := false
  deriving DecidableEq, Repr

/-- What a message of class MSG carries: a mailbox payload, a task, or a record for the host (R345, R355, R361). -/
inductive Body where
  | mbox (payload : List Byte)
  | task (t : Task)
  | record (slot : Nat) (value : W64)
  deriving DecidableEq, Repr

/-- A message of a message unit: its serial number there, sender, target name, target node, pair sequence (R345 to R347). -/
structure Msg where
  id : Nat
  src : Nat
  vi : Nat
  name : W64
  dst : Nat
  seq : Nat
  body : Body
  sendn : Bool := false
  reoffer : Bool := false
  deriving DecidableEq, Repr

/-- What a backup request for another device carries: the device it comes from and the one it goes to, the copy index, the fields of
the launch that a copy needs, and the descriptor snapshot (R20, R98, log 87). -/
structure BackJob where
  origin : Nat
  peer : Nat
  copy : Nat
  geom : W64
  tilebase : W64
  udbase : W64
  codebase : W64
  prio : Nat
  spkib : Nat
  ntile : Nat
  gx : Nat
  gy : Nat
  gz : Nat
  snap : List Byte
  deriving DecidableEq, Repr

/-- How a copy ends: by DONE with a publish or without a result tile, by DONE with a VOID claim, as failed, as a loser
(whether by STALE), or cancelled (R89, R441). -/
inductive EndHow where
  | done | void | failed (code : Nat) | loser (stale : Bool) | cancelled
  deriving DecidableEq, Repr

/-- What two dispatchers of one backup on another device tell each other (R97 to R99, R103, log 87): the request; a request of a
backup for a further one; the backup has entered PLACING in a context; it has ended, with its start and stop, WORKCTR and latest
visibility time; the request is withdrawn. -/
inductive BackNote where
  | ask
  | more
  | placed (xk : Nat)
  | ended (xk : Nat) (how : EndHow) (start stop work vis : Nat)
  | withdraw
  deriving DecidableEq, Repr

/-- A backup request of the hedge monitor (R97, R98); with a job where it goes to another device. -/
structure BReq where
  u : URef
  est : Nat
  die : Nat
  until_ : Nat
  serial : Nat
  job : Option BackJob := none
  note : BackNote := .ask
  deriving DecidableEq, Repr

/-- A line on its way home: the owner core, interface, line address, home node and physical address, and its bytes (R172, R173). -/
structure WriteBack where
  ck : Nat
  vi : Nat
  va : W64
  home : Nat
  pa : Nat
  data : List Byte
  serial : Nat
  deriving DecidableEq, Repr

/-- The answers to a claim that reach a copy (R433, R437 to R439). -/
inductive ClaimAns where
  | won
  | granted (slot tlines : Nat) (sh : W64) (home pa : Nat)
  | lost | stale | badhdr | dfetch | groupmiss | streamflt
  | published (slot : Nat)
  deriving DecidableEq, Repr

/-- The caller of a task: its interface, and the core address to which the reply goes (R355). -/
structure Caller where
  vi : Nat
  addr : Nat
  deriving DecidableEq, Repr

/-- A page that its owner has flushed, and the status WB-INFLIGHT of the answer (R173). -/
structure Flushed where
  page : W64
  inflight : Bool
  deriving DecidableEq, Repr

/-- A direction of a fabric port whose key is rolled; `ack`: the receiver acknowledges its new key (R72, step 1). -/
structure PortDir where
  port : Nat
  recv : Bool
  ack : Bool := false
  deriving DecidableEq, Repr

/-- Tantalum's manifest: its bytes, their signature, the key that signed it, its security version and the hashes of the images
that it lists (R73). -/
structure Manifest where
  text : List Byte
  signature : List Byte
  key : List Byte
  version : Nat
  hashes : List (BitVec 256)
  deriving DecidableEq, Repr

/-- The answer to a pin (R29, R448). -/
inductive PinAns where
  | pinned (buf : W64) (bufB : Bool) (tlines pa : Nat)
  | stalepin | earlypin | badhdr | dfetch
  deriving DecidableEq, Repr


/-- One constructor per row of the opcode table, in its order. -/
inductive Instr where
  /-- ADD (R135). Writes the sum of xa and xb, modulo 2^64, into xd. -/
  | add (d : BitVec 5) (a : BitVec 5) (b : BitVec 5)
  /-- SUB (R135). Writes xa minus xb, modulo 2^64, into xd. -/
  | sub (d : BitVec 5) (a : BitVec 5) (b : BitVec 5)
  /-- AND (R135). Writes the bitwise AND of xa and xb into xd. -/
  | and (d : BitVec 5) (a : BitVec 5) (b : BitVec 5)
  /-- ANDN (R135). Writes xa AND NOT xb into xd. -/
  | andn (d : BitVec 5) (a : BitVec 5) (b : BitVec 5)
  /-- OR (R135). Writes the bitwise OR of xa and xb into xd. -/
  | or (d : BitVec 5) (a : BitVec 5) (b : BitVec 5)
  /-- XOR (R135). Writes the bitwise XOR of xa and xb into xd. -/
  | xor (d : BitVec 5) (a : BitVec 5) (b : BitVec 5)
  /-- SLL (R135). Shifts xa left by xb[5:0] bits and writes the result into xd. -/
  | sll (d : BitVec 5) (a : BitVec 5) (b : BitVec 5)
  /-- SRL (R135). Shifts xa right logically by xb[5:0] bits and writes the result into xd. -/
  | srl (d : BitVec 5) (a : BitVec 5) (b : BitVec 5)
  /-- SRA (R135). Shifts xa right arithmetically by xb[5:0] bits and writes the result into xd. -/
  | sra (d : BitVec 5) (a : BitVec 5) (b : BitVec 5)
  /-- MUL (R135). Writes the low 64 bits of the product of xa and xb into xd. -/
  | mul (d : BitVec 5) (a : BitVec 5) (b : BitVec 5)
  /-- MULH (R135). Writes the high 64 bits of the signed 128-bit product into xd. -/
  | mulh (d : BitVec 5) (a : BitVec 5) (b : BitVec 5)
  /-- MULHN (R135). Writes the high 64 bits of the unsigned 128-bit product into xd. -/
  | mulhn (d : BitVec 5) (a : BitVec 5) (b : BitVec 5)
  /-- DIV (R136). Performs signed division truncated towards zero, with fixed results on the boundary cases, and never traps. -/
  | div (d : BitVec 5) (a : BitVec 5) (b : BitVec 5)
  /-- DIVN (R136). Performs unsigned division, with fixed results on the boundary cases. -/
  | divn (d : BitVec 5) (a : BitVec 5) (b : BitVec 5)
  /-- REM (R136). Writes the signed remainder into xd. -/
  | rem (d : BitVec 5) (a : BitVec 5) (b : BitVec 5)
  /-- REMN (R136). Writes the unsigned remainder into xd. -/
  | remn (d : BitVec 5) (a : BitVec 5) (b : BitVec 5)
  /-- MIN (R135). Writes the signed minimum of xa and xb into xd. -/
  | min (d : BitVec 5) (a : BitVec 5) (b : BitVec 5)
  /-- MAX (R135). Writes the signed maximum of xa and xb into xd. -/
  | max (d : BitVec 5) (a : BitVec 5) (b : BitVec 5)
  /-- MINN (R135). Writes the unsigned minimum of xa and xb into xd. -/
  | minn (d : BitVec 5) (a : BitVec 5) (b : BitVec 5)
  /-- MAXN (R135). Writes the unsigned maximum of xa and xb into xd. -/
  | maxn (d : BitVec 5) (a : BitVec 5) (b : BitVec 5)
  /-- SLT (R135). Writes 1 into xd if xa is less than xb as signed values, and 0 otherwise. -/
  | slt (d : BitVec 5) (a : BitVec 5) (b : BitVec 5)
  /-- SLTN (R135). Writes 1 into xd if xa is less than xb as unsigned values, and 0 otherwise. -/
  | sltn (d : BitVec 5) (a : BitVec 5) (b : BitVec 5)
  /-- SEQ (R135). Writes 1 into xd if xa equals xb, and 0 otherwise. -/
  | seq (d : BitVec 5) (a : BitVec 5) (b : BitVec 5)
  /-- CLZ (R135). Counts the leading zero bits of xa. -/
  | clz (d : BitVec 5) (a : BitVec 5)
  /-- CTZ (R135). Counts the trailing zero bits of xa. -/
  | ctz (d : BitVec 5) (a : BitVec 5)
  /-- POPC (R135). Counts the one bits of xa. -/
  | popc (d : BitVec 5) (a : BitVec 5)
  /-- BEXT (R137). Extracts the bit field of xa that xb describes. -/
  | bext (d : BitVec 5) (a : BitVec 5) (b : BitVec 5)
  /-- BINS (R137). Inserts the low bits of xa into the field of xd that xb describes. -/
  | bins (d : BitVec 5) (a : BitVec 5) (b : BitVec 5)
  /-- ADDI (R138). Adds a sign-extended immediate to xa. -/
  | addi (d : BitVec 5) (a : BitVec 5) (i : BitVec 16)
  /-- ANDI (R138). ANDs xa with a zero-extended immediate. -/
  | andi (d : BitVec 5) (a : BitVec 5) (i : BitVec 16)
  /-- ORI (R138). ORs xa with a zero-extended immediate. -/
  | ori (d : BitVec 5) (a : BitVec 5) (i : BitVec 16)
  /-- XORI (R138). XORs xa with a zero-extended immediate. -/
  | xori (d : BitVec 5) (a : BitVec 5) (i : BitVec 16)
  /-- SLTI (R138). Compares xa, as a signed value, with a sign-extended immediate. -/
  | slti (d : BitVec 5) (a : BitVec 5) (i : BitVec 16)
  /-- SLTIN (R138). Compares xa, as an unsigned value, with a sign-extended immediate. -/
  | sltin (d : BitVec 5) (a : BitVec 5) (i : BitVec 16)
  /-- SLLI (R138). Shifts xa left by an immediate amount. -/
  | slli (d : BitVec 5) (a : BitVec 5) (s : BitVec 6)
  /-- SRLI (R138). Shifts xa right logically by an immediate amount. -/
  | srli (d : BitVec 5) (a : BitVec 5) (s : BitVec 6)
  /-- SRAI (R138). Shifts xa right arithmetically by an immediate amount. -/
  | srai (d : BitVec 5) (a : BitVec 5) (s : BitVec 6)
  /-- LUI (R138). Writes the sign-extended immediate times 65,536 into xd. -/
  | lui (d : BitVec 5) (i : BitVec 16)
  /-- APC (R138). Writes the PC plus the sign-extended immediate times 65,536 into xd. -/
  | apc (d : BitVec 5) (i : BitVec 16)
  /-- JAL (R140). Jumps PC-relative and writes the link into xd. -/
  | jal (d : BitVec 5) (o : BitVec 21)
  /-- JALR (R141). Jumps to xa plus the immediate and writes the link into xd, trapping MISPC on a misaligned target. -/
  | jalr (d : BitVec 5) (a : BitVec 5) (i : BitVec 16)
  /-- BEQ (R142). Branches if xa equals xb. -/
  | beq (a : BitVec 5) (b : BitVec 5) (o : BitVec 16)
  /-- BNE (R142). Branches if xa differs from xb. -/
  | bne (a : BitVec 5) (b : BitVec 5) (o : BitVec 16)
  /-- BLT (R142). Branches if xa is less than xb as signed values. -/
  | blt (a : BitVec 5) (b : BitVec 5) (o : BitVec 16)
  /-- BGE (R142). Branches if xa is greater than or equal to xb as signed values. -/
  | bge (a : BitVec 5) (b : BitVec 5) (o : BitVec 16)
  /-- BLTN (R142). Branches if xa is less than xb as unsigned values. -/
  | bltn (a : BitVec 5) (b : BitVec 5) (o : BitVec 16)
  /-- BGEN (R142). Branches if xa is greater than or equal to xb as unsigned values. -/
  | bgen (a : BitVec 5) (b : BitVec 5) (o : BitVec 16)
  /-- LB (R182). Loads a byte with sign extension. -/
  | lb (d : BitVec 5) (a : BitVec 5) (o : BitVec 13)
  /-- LBN (R182). Loads a byte with zero extension. -/
  | lbn (d : BitVec 5) (a : BitVec 5) (o : BitVec 13)
  /-- LH (R182). Loads a halfword with sign extension. -/
  | lh (d : BitVec 5) (a : BitVec 5) (o : BitVec 13)
  /-- LHN (R182). Loads a halfword with zero extension. -/
  | lhn (d : BitVec 5) (a : BitVec 5) (o : BitVec 13)
  /-- LW (R182). Loads a word with sign extension. -/
  | lw (d : BitVec 5) (a : BitVec 5) (o : BitVec 13)
  /-- LWN (R182). Loads a word with zero extension. -/
  | lwn (d : BitVec 5) (a : BitVec 5) (o : BitVec 13)
  /-- LD (R182). Loads 8 bytes. -/
  | ld (d : BitVec 5) (a : BitVec 5) (o : BitVec 13)
  /-- SB (R183). Stores a byte, sealing a hedged unit when the address lies outside its run. -/
  | sb (s : BitVec 5) (a : BitVec 5) (o : BitVec 13)
  /-- SH (R183). Stores a halfword. -/
  | sh (s : BitVec 5) (a : BitVec 5) (o : BitVec 13)
  /-- SW (R183). Stores a word. -/
  | sw (s : BitVec 5) (a : BitVec 5) (o : BitVec 13)
  /-- SD (R183). Stores 8 bytes. -/
  | sd (s : BitVec 5) (a : BitVec 5) (o : BitVec 13)
  /-- STV (R185). Stores xb at xa and writes the acknowledged visibility time into xd. -/
  | stv (d : BitVec 5) (a : BitVec 5) (b : BitVec 5)
  /-- PREF (R186). Prefetches the line into L1 and never faults. -/
  | pref (a : BitVec 5)
  /-- L1WB (R186). Writes back a dirty private line and keeps it valid. -/
  | l1wb (a : BitVec 5)
  /-- L1INV (R186). Writes back a dirty private line and drops the line. -/
  | l1inv (a : BitVec 5)
  /-- HNEW (R187). Creates a buffer handle over part of the run. -/
  | hnew (d : BitVec 5) (a : BitVec 5) (b : BitVec 5)
  /-- HGIVE (R188). Gives a buffer to a new holder, raises GEN and sweeps the old handle. -/
  | hgive (d : BitVec 5) (a : BitVec 5) (b : BitVec 5)
  /-- HREV (R189). Frees a buffer entry. -/
  | hrev (a : BitVec 5)
  /-- HCHK (R190). Reports the state of a handle. -/
  | hchk (d : BitVec 5) (a : BitVec 5)
  /-- FADD (R235). Adds two scalar floats with one rounding. -/
  | fadd (d : BitVec 5) (a : BitVec 5) (b : BitVec 5) (t : BitVec 1)
  /-- FSUB (R235). Subtracts two scalar floats. -/
  | fsub (d : BitVec 5) (a : BitVec 5) (b : BitVec 5) (t : BitVec 1)
  /-- FMUL (R235). Multiplies two scalar floats. -/
  | fmul (d : BitVec 5) (a : BitVec 5) (b : BitVec 5) (t : BitVec 1)
  /-- FFMA (R235). Computes xa times xb plus xd with one rounding. -/
  | ffma (d : BitVec 5) (a : BitVec 5) (b : BitVec 5) (t : BitVec 1)
  /-- FFMS (R235). Computes xa times xb minus xd with one rounding. -/
  | ffms (d : BitVec 5) (a : BitVec 5) (b : BitVec 5) (t : BitVec 1)
  /-- FDIV (R235). Divides two scalar floats. -/
  | fdiv (d : BitVec 5) (a : BitVec 5) (b : BitVec 5) (t : BitVec 1)
  /-- FSQRT (R235). Computes a scalar square root. -/
  | fsqrt (d : BitVec 5) (a : BitVec 5) (t : BitVec 1)
  /-- FMIN (R236). Writes the smaller of two scalar floats. -/
  | fmin (d : BitVec 5) (a : BitVec 5) (b : BitVec 5) (t : BitVec 1)
  /-- FMAX (R236). Writes the larger of two scalar floats. -/
  | fmax (d : BitVec 5) (a : BitVec 5) (b : BitVec 5) (t : BitVec 1)
  /-- FCEQ (R237). Compares two scalar floats for equality. -/
  | fceq (d : BitVec 5) (a : BitVec 5) (b : BitVec 5) (t : BitVec 1)
  /-- FCLT (R237). Compares two scalar floats for less-than. -/
  | fclt (d : BitVec 5) (a : BitVec 5) (b : BitVec 5) (t : BitVec 1)
  /-- FCLE (R237). Compares two scalar floats for less-than-or-equal. -/
  | fcle (d : BitVec 5) (a : BitVec 5) (b : BitVec 5) (t : BitVec 1)
  /-- FCVT (R238). Converts a scalar between any two types, optionally under an FMT prefix. -/
  | fcvt (d : BitVec 5) (a : BitVec 5) (s : BitVec 4) (t : BitVec 4)
  /-- FCLASS (R239). Classifies a scalar float into one bit. -/
  | fclass (d : BitVec 5) (a : BitVec 5) (t : BitVec 1)
  /-- VADD (R246). Adds vector lanes under the mask. -/
  | vadd (d : BitVec 5) (a : BitVec 5) (b : BitVec 5) (k : BitVec 3) (t : BitVec 4)
  /-- VSUB (R246). Subtracts vector lanes under the mask. -/
  | vsub (d : BitVec 5) (a : BitVec 5) (b : BitVec 5) (k : BitVec 3) (t : BitVec 4)
  /-- VMUL (R246). Multiplies vector lanes under the mask. -/
  | vmul (d : BitVec 5) (a : BitVec 5) (b : BitVec 5) (k : BitVec 3) (t : BitVec 4)
  /-- VFMA (R246). Performs a fused multiply-add on vector lanes. -/
  | vfma (d : BitVec 5) (a : BitVec 5) (b : BitVec 5) (k : BitVec 3) (t : BitVec 4)
  /-- VFMS (R246). Performs a fused multiply-subtract on vector lanes. -/
  | vfms (d : BitVec 5) (a : BitVec 5) (b : BitVec 5) (k : BitVec 3) (t : BitVec 4)
  /-- VMIN (R246). Writes the lane-wise minimum. -/
  | vmin (d : BitVec 5) (a : BitVec 5) (b : BitVec 5) (k : BitVec 3) (t : BitVec 4)
  /-- VMAX (R246). Writes the lane-wise maximum. -/
  | vmax (d : BitVec 5) (a : BitVec 5) (b : BitVec 5) (k : BitVec 3) (t : BitVec 4)
  /-- VABS (R247). Writes the lane-wise absolute value. -/
  | vabs (d : BitVec 5) (a : BitVec 5) (k : BitVec 3) (t : BitVec 4)
  /-- VNEG (R247). Writes the lane-wise negation. -/
  | vneg (d : BitVec 5) (a : BitVec 5) (k : BitVec 3) (t : BitVec 4)
  /-- VAND (R246). Writes the lane-wise AND. -/
  | vand (d : BitVec 5) (a : BitVec 5) (b : BitVec 5) (k : BitVec 3) (t : BitVec 4)
  /-- VOR (R246). Writes the lane-wise OR. -/
  | vor (d : BitVec 5) (a : BitVec 5) (b : BitVec 5) (k : BitVec 3) (t : BitVec 4)
  /-- VXOR (R246). Writes the lane-wise XOR. -/
  | vxor (d : BitVec 5) (a : BitVec 5) (b : BitVec 5) (k : BitVec 3) (t : BitVec 4)
  /-- VSLL (R247). Shifts lanes left. -/
  | vsll (d : BitVec 5) (a : BitVec 5) (b : BitVec 5) (k : BitVec 3) (t : BitVec 4)
  /-- VSRL (R247). Shifts lanes right logically. -/
  | vsrl (d : BitVec 5) (a : BitVec 5) (b : BitVec 5) (k : BitVec 3) (t : BitVec 4)
  /-- VSRA (R247). Shifts lanes right arithmetically. -/
  | vsra (d : BitVec 5) (a : BitVec 5) (b : BitVec 5) (k : BitVec 3) (t : BitVec 4)
  /-- VCMPEQ (R248). Compares lanes for equality into a mask register. -/
  | vcmpeq (d : BitVec 5) (a : BitVec 5) (b : BitVec 5) (k : BitVec 3) (t : BitVec 4)
  /-- VCMPLT (R248). Compares lanes for less-than into a mask register. -/
  | vcmplt (d : BitVec 5) (a : BitVec 5) (b : BitVec 5) (k : BitVec 3) (t : BitVec 4)
  /-- VCMPLE (R248). Compares lanes for less-than-or-equal into a mask register. -/
  | vcmple (d : BitVec 5) (a : BitVec 5) (b : BitVec 5) (k : BitVec 3) (t : BitVec 4)
  /-- VSEL (R249). Selects lanes from va or vb by the mask. -/
  | vsel (d : BitVec 5) (a : BitVec 5) (b : BitVec 5) (k : BitVec 3) (t : BitVec 4)
  /-- VREDADD (R250). Reduces the active lanes to their sum, rounded once. -/
  | vredadd (d : BitVec 5) (a : BitVec 5) (k : BitVec 3) (t : BitVec 4)
  /-- VREDMAX (R250). Reduces the active lanes to their maximum. -/
  | vredmax (d : BitVec 5) (a : BitVec 5) (k : BitVec 3) (t : BitVec 4)
  /-- VREDMIN (R250). Reduces the active lanes to their minimum. -/
  | vredmin (d : BitVec 5) (a : BitVec 5) (k : BitVec 3) (t : BitVec 4)
  /-- VAMAX (R250). Reduces the active lanes to their largest magnitude. -/
  | vamax (d : BitVec 5) (a : BitVec 5) (k : BitVec 3) (t : BitVec 4)
  /-- VCVT (R251). Converts vector elements between types. -/
  | vcvt (d : BitVec 5) (a : BitVec 5) (s : BitVec 4) (k : BitVec 3) (t : BitVec 4)
  /-- VQNT (R252). Quantises 16 FP32 lanes with scales into FP8 or I8. -/
  | vqnt (d : BitVec 5) (a : BitVec 5) (b : BitVec 5) (k : BitVec 3) (t : BitVec 4)
  /-- VDQNT (R253). Dequantises 16 narrow elements into FP32 with scales. -/
  | vdqnt (d : BitVec 5) (a : BitVec 5) (b : BitVec 5) (k : BitVec 3) (t : BitVec 4)
  /-- VEXP2 (R254). Approximates 2^u for each lane. -/
  | vexp2 (d : BitVec 5) (a : BitVec 5) (k : BitVec 3) (t : BitVec 4)
  /-- VLOG2 (R254). Approximates log2 u for each lane. -/
  | vlog2 (d : BitVec 5) (a : BitVec 5) (k : BitVec 3) (t : BitVec 4)
  /-- VRCP (R254). Approximates the reciprocal of each lane. -/
  | vrcp (d : BitVec 5) (a : BitVec 5) (k : BitVec 3) (t : BitVec 4)
  /-- VRSQ (R254). Approximates the reciprocal square root of each lane. -/
  | vrsq (d : BitVec 5) (a : BitVec 5) (k : BitVec 3) (t : BitVec 4)
  /-- VPERM (R256). Permutes lanes by an index vector. -/
  | vperm (d : BitVec 5) (a : BitVec 5) (b : BitVec 5) (k : BitVec 3) (t : BitVec 4)
  /-- VSHUF (R256). Shuffles lanes from two tables. -/
  | vshuf (d : BitVec 5) (a : BitVec 5) (b : BitVec 5) (k : BitVec 3) (t : BitVec 4)
  /-- VBCAST (R257). Broadcasts an x register into the active lanes. -/
  | vbcast (d : BitVec 5) (a : BitVec 5) (k : BitVec 3) (t : BitVec 4)
  /-- VEXT (R257). Extracts one lane into an x register. -/
  | vext (d : BitVec 5) (a : BitVec 5) (b : BitVec 5) (t : BitVec 4)
  /-- VINS (R257). Inserts an x register into one lane. -/
  | vins (d : BitVec 5) (a : BitVec 5) (b : BitVec 5) (t : BitVec 4)
  /-- VLD (R258). Loads a contiguous vector. -/
  | vld (d : BitVec 5) (a : BitVec 5) (k : BitVec 3) (t : BitVec 4)
  /-- VST (R258). Stores a contiguous vector, sealing when a lane lies outside the run. -/
  | vst (d : BitVec 5) (a : BitVec 5) (k : BitVec 3) (t : BitVec 4)
  /-- VLDS (R258). Loads a strided vector. -/
  | vlds (d : BitVec 5) (a : BitVec 5) (b : BitVec 5) (k : BitVec 3) (t : BitVec 4)
  /-- VSTS (R258). Stores a strided vector. -/
  | vsts (d : BitVec 5) (a : BitVec 5) (b : BitVec 5) (k : BitVec 3) (t : BitVec 4)
  /-- VGTH (R258). Gathers lanes by an index vector. -/
  | vgth (d : BitVec 5) (a : BitVec 5) (b : BitVec 5) (k : BitVec 3) (t : BitVec 4)
  /-- VSCT (R258). Scatters lanes by an index vector. -/
  | vsct (d : BitVec 5) (a : BitVec 5) (b : BitVec 5) (k : BitVec 3) (t : BitVec 4)
  /-- KAND (R261). ANDs two mask registers. -/
  | kand (d : BitVec 5) (a : BitVec 5) (b : BitVec 5)
  /-- KOR (R261). ORs two mask registers. -/
  | kor (d : BitVec 5) (a : BitVec 5) (b : BitVec 5)
  /-- KNOT (R261). Inverts a mask register. -/
  | knot (d : BitVec 5) (a : BitVec 5)
  /-- KMOV (R261). Copies one mask register into another (type 0). -/
  | kmov (d : BitVec 5) (a : BitVec 5)
  /-- KMOV_FROM_X (R261). Copies an x register into a mask register (type 1). -/
  | kmovFromX (d : BitVec 5) (a : BitVec 5)
  /-- KMOV_TO_X (R261). Copies a mask register into an x register (type 2). -/
  | kmovToX (d : BitVec 5) (a : BitVec 5)
  /-- MACQ (R268). Binds a logical tile name to a free physical tile register, which then reads zero. -/
  | macq (d : BitVec 3)
  /-- MREL (R269). Unbinds a tile register once its interlocks are met. -/
  | mrel (d : BitVec 3)
  /-- MLD (R273). Loads a tile from memory. -/
  | mld (d : BitVec 3) (s : BitVec 5)
  /-- MST (R273). Stores a tile to memory, sealing when its extent lies outside the run. -/
  | mst (d : BitVec 3) (s : BitVec 5)
  /-- MZERO (R275). Clears all 16 KiB of a tile register. -/
  | mzero (d : BitVec 3)
  /-- MMA (R278). Issues a matrix multiply-accumulate macro-op. -/
  | mma (d : BitVec 3) (a : BitVec 3) (b : BitVec 3)
  /-- MMAS (R278). Issues a scaled FP8 matrix multiply-accumulate macro-op. -/
  | mmas (d : BitVec 3) (a : BitVec 3) (b : BitVec 3) (m : BitVec 3)
  /-- MADD (R275). Adds two tiles element-wise. -/
  | madd (d : BitVec 3) (a : BitVec 3) (b : BitVec 3)
  /-- MSCL (R275). Scales a tile by an FP32 scalar. -/
  | mscl (d : BitVec 3) (a : BitVec 3) (s : BitVec 5)
  /-- MCVT (R275). Converts a tile between types. -/
  | mcvt (d : BitVec 3) (a : BitVec 3)
  /-- MTRN (R275). Transposes a tile. -/
  | mtrn (d : BitVec 3) (a : BitVec 3)
  /-- MGEO (R284). Writes one group-geometry value of the unit into an x register. -/
  | mgeo (s : BitVec 5) (l : BitVec 3)
  /-- CPSTAT (R212). Reports the state of one of the context's copies. -/
  | cpstat (a : BitVec 5) (d : BitVec 5)
  /-- CPKILL (R213). Kills a queued or running copy of the context. -/
  | cpkill (a : BitVec 5)
  /-- MKFULL (R214). Sets a range of scratchpad lines full. -/
  | mkfull (a : BitVec 5) (b : BitVec 5)
  /-- MKEMPTY (R214). Sets a range of scratchpad lines empty. -/
  | mkempty (a : BitVec 5) (b : BitVec 5)
  /-- FESTAT (R215). Reads the full/empty bits of 64 lines. -/
  | festat (a : BitVec 5) (d : BitVec 5)
  /-- WADDR (R216). Waits until the word at xa differs from xb. -/
  | waddr (a : BitVec 5) (b : BitVec 5)
  /-- LOOP (R144). Opens a hardware loop level in a FEED context. -/
  | loop (l : BitVec 2) (a : BitVec 5) (b : BitVec 5)
  /-- MTC (R154). Writes a control register. -/
  | mtc (a : BitVec 5) (c : BitVec 12)
  /-- MFC (R154). Reads a control register. -/
  | mfc (d : BitVec 5) (c : BitVec 12)
  /-- CPGO (R199). Reading CPGO with MFC checks and snapshots the copy registers, queues a copy and returns its transfer id. -/
  | cpgo (d : BitVec 5)
  /-- FENCE (R308). Performs a release, an acquire or both at the given scope. -/
  | fence (s : BitVec 4) (k : BitVec 2)
  /-- LDACQ (R309). Loads at the home and performs an acquire at the given scope. -/
  | ldacq (d : BitVec 5) (a : BitVec 5) (s : BitVec 4)
  /-- STREL (R310). Stores after a release at the given scope. -/
  | strel (a : BitVec 5) (b : BitVec 5) (s : BitVec 4)
  /-- GTWAIT (R311). Waits until GTIME reaches xa. -/
  | gtwait (a : BitVec 5)
  /-- AMADD (R312). Performs an atomic add at the home. -/
  | amadd (d : BitVec 5) (a : BitVec 5) (b : BitVec 5) (w : BitVec 1)
  /-- AMAND (R312). Performs an atomic AND. -/
  | amand (d : BitVec 5) (a : BitVec 5) (b : BitVec 5) (w : BitVec 1)
  /-- AMOR (R312). Performs an atomic OR. -/
  | amor (d : BitVec 5) (a : BitVec 5) (b : BitVec 5) (w : BitVec 1)
  /-- AMXOR (R312). Performs an atomic XOR. -/
  | amxor (d : BitVec 5) (a : BitVec 5) (b : BitVec 5) (w : BitVec 1)
  /-- AMMIN (R312). Performs an atomic signed minimum. -/
  | ammin (d : BitVec 5) (a : BitVec 5) (b : BitVec 5) (w : BitVec 1)
  /-- AMMAX (R312). Performs an atomic signed maximum. -/
  | ammax (d : BitVec 5) (a : BitVec 5) (b : BitVec 5) (w : BitVec 1)
  /-- AMMINN (R312). Performs an atomic unsigned minimum. -/
  | amminn (d : BitVec 5) (a : BitVec 5) (b : BitVec 5) (w : BitVec 1)
  /-- AMMAXN (R312). Performs an atomic unsigned maximum. -/
  | ammaxn (d : BitVec 5) (a : BitVec 5) (b : BitVec 5) (w : BitVec 1)
  /-- AMSWP (R312). Performs an atomic swap. -/
  | amswp (d : BitVec 5) (a : BitVec 5) (b : BitVec 5) (w : BitVec 1)
  /-- AMCAS (R312). Performs an atomic compare-and-swap against xd. -/
  | amcas (d : BitVec 5) (a : BitVec 5) (b : BitVec 5) (w : BitVec 1)
  /-- AMFADD (R312). Performs an atomic FP32 add, rounding to nearest even. -/
  | amfadd (d : BitVec 5) (a : BitVec 5) (b : BitVec 5)
  /-- AMDADD (R312). Performs an atomic FP64 add, rounding to nearest even. -/
  | amdadd (d : BitVec 5) (a : BitVec 5) (b : BitVec 5)
  /-- LOCK (R337). Requests the queued lock of a line and waits for a grant, a timeout or a deadlock. -/
  | lock (d : BitVec 5) (a : BitVec 5) (b : BitVec 5)
  /-- UNLOCK (R338). Releases a held line lock and passes it on. -/
  | unlock (a : BitVec 5)
  /-- LKTRY (R339). Tries to take a line lock without queueing. -/
  | lktry (d : BitVec 5) (a : BitVec 5)
  /-- LKQ (R340). Queries the lock state of a line. -/
  | lkq (d : BitVec 5) (a : BitVec 5)
  /-- WAIT (R151). Stalls until the outstanding counters are within their limits. -/
  | wait (l : BitVec 4) (s : BitVec 4) (c : BitVec 4) (m : BitVec 4) (g : BitVec 4)
  /-- SEND (R345). Sends a typed message to a mailbox. -/
  | send (a : BitVec 5) (b : BitVec 5)
  /-- SENDN (R345). Sends a message and waits for its acceptance or refusal. -/
  | sendn (d : BitVec 5) (a : BitVec 5) (b : BitVec 5)
  /-- CALLAT (R355). Places a task on a core with an optional reply cell. -/
  | callat (d : BitVec 5) (a : BitVec 5) (b : BitVec 5)
  /-- RWI (R356). Writes a remote word and raises a counter of the target core. -/
  | rwi (a : BitVec 5) (b : BitVec 5)
  /-- ARM (R357). Arms a waiting-task entry on a counter threshold. -/
  | arm (d : BitVec 5) (a : BitVec 5) (b : BitVec 5)
  /-- DISARM (R357). Disarms a waiting-task entry. -/
  | disarm (a : BitVec 5)
  /-- WATCH (R358). Installs a watchpoint binding at a home slice. -/
  | watch (d : BitVec 5) (a : BitVec 5) (b : BitVec 5)
  /-- REWATCH (R360). Replaces a watchpoint binding and reports its old state. -/
  | rewatch (d : BitVec 5) (a : BitVec 5) (b : BitVec 5)
  /-- APIN (R344). Binds a mailbox to an actor handler, ring and state area. -/
  | apin (d : BitVec 5) (a : BitVec 5) (b : BitVec 5)
  /-- AUNPIN (R351). Marks a mailbox as being unbound. -/
  | aunpin (a : BitVec 5)
  /-- HMSG (R361). Writes a completion record to a host queue of the interface. -/
  | hmsg (a : BitVec 5) (b : BitVec 5)
  /-- COMMIT (R445). Claims the result tile, then streams and publishes it. -/
  | commit (d : BitVec 5) (a : BitVec 5) (b : BitVec 5)
  /-- SEAL (R446). Claims the result tile for this copy by sealing it. -/
  | seal (d : BitVec 5)
  /-- CLAIMQ (R447). Reads the claim state of a tile header. -/
  | claimq (d : BitVec 5) (a : BitVec 5)
  /-- RPIN (R448). Pins a version of a tile at run time. -/
  | rpin (d : BitVec 5) (a : BitVec 5) (b : BitVec 5)
  /-- RUNPIN (R449). Releases one of the copy's pins on a buffer. -/
  | runpin (a : BitVec 5)
  /-- WKQ (R450). Queries the completion counter of a level. -/
  | wkq (d : BitVec 5) (a : BitVec 5) (b : BitVec 5)
  /-- WKCAN (R451). Cancels a level of the interface. -/
  | wkcan (d : BitVec 5) (a : BitVec 5) (b : BitVec 5)
  /-- DONE (R152). Waits for the counters, releases the context's resources and ends the context. -/
  | done
  /-- TRAP (R395). Raises a TRAPI trap with a code. -/
  | trap (c : BitVec 6)
  /-- ERET (R396). Returns from a trap to EPC and replays any refused accesses. -/
  | eret
  /-- IDLE (R397). Stalls until an event reaches the core or a timeout passes. -/
  | idle
  /-- BRK (R395). Raises a BRK trap with a code. -/
  | brk (c : BitVec 6)
  /-- TLBINV (R398). Invalidates translations of one page or of every page and waits out the leases. -/
  | tlbinv (a : BitVec 5) (b : BitVec 5)
  /-- CTXSV (R399). Saves a halted context of the core into a save image. -/
  | ctxsv (a : BitVec 5)
  /-- CTXLD (R400). Loads a context from a save image. -/
  | ctxld (a : BitVec 5)
  /-- FLTACK (R401). Resumes a fibre from an upcall block once its notices have arrived. -/
  | fltack (a : BitVec 5)
  /-- YIELD (R153). Gives up issue slots to other contexts of the core. -/
  | yield
  /-- FMT (R122). Sets the operand formats, rounding and saturation of the next instruction. -/
  | fmt (a : BitVec 4) (b : BitVec 4) (r : BitVec 2) (s : BitVec 2)
  /-- RECEIVER_FAULT (R171). A refusal from a receiver arrives, and the context stops at the next boundary with the access kept for replay. -/
  | receiverFault (xk : Nat) (r : Option Refused)
  /-- UPCALL (R378). Once the counters have drained, writes the upcall block and enters the runtime scheduler. -/
  | upcall (xk : Nat)
  /-- NOTICE (R379). A fault-resolution notice arrives and updates NDONE and a counter. -/
  | notice (ck token : Nat) (err : Bool)
  /-- FBACK (R382). A write acknowledges a fault-buffer entry and sends its notice. -/
  | fback (die : Nat) (value : W64)
  /-- FAULT_RETRY (R383). A request answered RETRY is sent again after 1,024 cycles. -/
  | faultRetry (q : Req)
  /-- HALT (R385). A CTXCTL command stops a context at an instruction boundary. -/
  | halt (die core ctx : Nat)
  /-- HALTALL (R385). A CTXCTL command stops every running context of the core. -/
  | haltAll (die core : Nat)
  /-- RESUME (R388). A CTXCTL command returns a halted context to its resume point. -/
  | resume (die core ctx : Nat)
  /-- TLBCMD (R398). A host write starts a translation invalidation for an interface. -/
  | tlbcmd (vi : Nat) (value : W64)
  /-- INVAL (R398). A translation home drops its cached entries, flushes private pages and replies with its GTIME. -/
  | inval (die vi : Nat) (all : Bool) (va : W64) (by_ : Option Nat)
  /-- CMAPSWP (R83). A write starts a swap of two logical cores on a die. -/
  | cmapswp (die : Nat) (value : W64)
  /-- SWAP_TRANSFER_DONE (R392). The core-state transfer of a swap completes, the map entries are exchanged and held messages are released. -/
  | swapTransferDone (die : Nat)
  /-- SRSPLIT (R160). A write requests a new scratchpad/L1 split for a die. -/
  | srsplit (die : Nat) (value : W64)
  /-- SPLIT_EFFECT (R160). The pending split takes effect once no core of the die holds a resident unit or an actor. -/
  | splitEffect (die : Nat)
  /-- TAILW (R40). A host write is forwarded as a QTAIL message once earlier writes are performed. -/
  | tailw (vi slot : Nat) (value : W64)
  /-- CHEADW (R40). A host write is forwarded as a QCHEAD message. -/
  | cheadw (vi slot : Nat) (value : W64)
  /-- QTAIL (R42). A tail message is checked and recorded, or stops the queue with QOVF. -/
  | qtail (queue tail : Nat)
  /-- QCHEAD (R42). A completion-head message is recorded. -/
  | qchead (queue head : Nat)
  /-- QCTL (R41). A write enables the queue after its checks, or disables it. -/
  | qctl (queue : Nat) (value : W64)
  /-- VICTL (R37). A write of EN enables an interface or starts its teardown. -/
  | victl (vi : Nat) (value : W64)
  /-- KEY_INSTALL (R37). Tantalum finishes installing the interface's memory key, and KEYV is set. -/
  | keyInstall (vi : Nat)
  /-- TEARDOWN_COMPLETE (R37). Once no context or message of the interface remains, the key is destroyed and QUIESCED is set. -/
  | teardownComplete (vi : Nat)
  /-- LAUNCH (R48). The queue engine reads and checks a launch record, and accepts or rejects it. -/
  | qLaunch (queue : Nat)
  /-- GRAPH (R49). The queue engine accepts N launch records of a graph, or closes a level. -/
  | qGraph (queue : Nat)
  /-- CANCEL (R50). A queue entry cancels a level of the interface. -/
  | qCancel (queue : Nat)
  /-- HMSG_ENTRY (R58). A queue entry sends a host active message to a core. -/
  | hmsgEntry (queue : Nat)
  /-- QFENCE (R52). A queue entry completes when every earlier entry has completed. -/
  | qfence (queue : Nat)
  /-- ENTRY_UNREADABLE (R54). A queue entry cannot be read, and the queue stops with EFETCH. -/
  | entryUnreadable (queue : Nat)
  /-- COMPLETION_RECORD (R57). After a release at HOST scope, a completion record is written once the ring has room. -/
  | completionRecord (queue : Nat)
  /-- CWRITE (R461). A completion record write fails, and the queue stops and discards owed records. -/
  | cwrite (queue : Nat)
  /-- HMSG_DELIVERY (R58). A host message reaches its core and starts, waits in a slot, or is refused. -/
  | hmsgDelivery (m : HostMsg)
  /-- HMSG_RETRY (R58). A refused host message is offered again after 256 cycles. -/
  | hmsgRetry (m : HostMsg)
  /-- HANDLER_MESSAGE (R68). A handler message reaches its target and starts on C6 or C7, queues, or is refused. -/
  | handlerMessage (m : HandMsg)
  /-- PLACEMENT_DECISION (R86). The dispatcher chooses the next unit or backup and reserves resources for it. -/
  | placementDecision (die : Nat)
  /-- BLOCK_STEAL (R84). A steal request for an untouched block is granted or refused. -/
  | blockSteal (die : Nat)
  /-- DISPATCH_REPORT (R84). A dispatcher's report of its untouched blocks and QUEUED counts arrives. -/
  | dispatchReport (die frm untouched queued : Nat)
  /-- DESCRIPTOR_READ (R89). A unit descriptor read completes and is checked, or the unit fails. -/
  | descriptorRead (u : URef)
  /-- PIN_REQUEST (R29). A tile home resolves a pin against the header. -/
  | pinRequest (q : Req)
  /-- PIN_REPLY (R89). A pin answer reaches the dispatcher, which makes the unit resident or fails it. -/
  | pinReply (q : Req) (home : Nat) (ans : PinAns)
  /-- PIN_RETRY (R29). A pin refused for count overflow is sent again after 256 cycles. -/
  | pinRetry (q : Req)
  /-- GANG_DRAIN (R92). A GANG launch enters DRAIN, and reservations are requested from every die. -/
  | gangDrain (vi lid : Nat)
  /-- GANG_RESERVE (R92). Every die holds its full reservation, and all units enter PLACING together. -/
  | gangReserve (vi lid : Nat)
  /-- HEDGE_SAMPLE (R94). At every 4,096th tick, the hedge monitor samples WORKCTR and may request backups. -/
  | hedgeSample
  /-- BUDGET_CHECK (R102). A backup request is granted or denied against the interface's token bucket. -/
  | budgetCheck (b : BReq)
  /-- BACKUP_REQUEST (R98). A granted backup request reaches the dispatcher chosen by the policy. -/
  | backupRequest (b : BReq)
  /-- HEDGE_REQUEST_TIMEOUT (R98). An unplaced backup request is dropped after 16,384 ticks, with its estimate refunded. -/
  | hedgeRequestTimeout (b : BReq)
  /-- BUDGET_REFILL (R102). Every 1,250 ticks, FILL tokens are added to the budget, up to CAP. -/
  | budgetRefill
  /-- TRANSLATE (R163). A translation home translates a global request and forwards it to the home slice. -/
  | translate (q : Req)
  /-- LOAD_REQUEST (R175). A home performs a load and returns the line with a lease. -/
  | loadRequest (q : Req)
  /-- LOAD_REPLY (R175). Load data arrives at the core and is written to its destination. -/
  | loadReply (q : Req) (data fill : List Byte) (expiry : Nat)
  /-- STORE_REQUEST (R176). A home performs a store and acknowledges it with its visibility time. -/
  | storeRequest (q : Req)
  /-- STORE_ACK (R177). A store acknowledgement arrives, st falls and VISMAX is raised. -/
  | storeAck (q : Req) (vt : Nat)
  /-- LEASE_EXPIRY (R175). A leased L1 line is dropped once the core's GTIME reaches its expiry. -/
  | leaseExpiry (ck : Nat) (vi : Nat) (va : W64)
  /-- WRITE_BACK (R172). A slice performs a voluntary or flush write-back of a private line. -/
  | writeBack (w : WriteBack)
  /-- FLUSH (R173). The owner writes back and drops a private page's lines, then replies FLUSHACK. -/
  | flush (ck vi : Nat) (page : W64) (size : Nat) (die : Nat)
  /-- FLUSHACK (R173). The translation home makes the page SHARED and releases the held requests. -/
  | flushAck (die vi : Nat) (page : Flushed)
  /-- HANDLE_UPDATE (R188). The buffer's core performs a remote HGIVE, HREV or HCHK in its serial order. -/
  | handleUpdate (q : Req)
  /-- COPY_BEGIN (R199). The engine begins a queued copy once the context's earlier stores are performed. -/
  | copyBegin (ck : Nat)
  /-- COPY_CONDITIONAL_WRITE (R205). The destination core compares the version word and writes the copy, or ends it with VMISS. -/
  | copyConditionalWrite (ck id : Nat)
  /-- COPY_COMPLETE (R207). A copy ends, its completion word is written, and cp falls. -/
  | copyComplete (ck id : Nat)
  /-- WADDR_RETRY (R216). A WADDR refused for lack of wait slots is sent again after 256 cycles. -/
  | waddrRetry (q : Req)
  /-- TILE_OP_COMPLETE (R275). A tile operation or MLD completes in the matrix unit, and mx or ld falls. -/
  | tileOpComplete (xk op : Nat)
  /-- SEGMENT_COMPLETE (R279). A macro-op segment's sums are added into md, and a pending stop is taken. -/
  | segmentComplete (xk : Nat)
  /-- SCOPE_MISS (R298). A scope-miss message returns an STREL or LDACQ, which is repaired at a wider scope. -/
  | scopeMiss (q : Req)
  /-- ATOMIC_REQUEST (R304). A home performs an atomic exactly once, or replays its recorded reply. -/
  | atomicRequest (q : Req)
  /-- ATOMIC_REPLY (R305). An atomic reply writes xd, raises VISMAX and ORs in the flags. -/
  | atomicReply (q : Req) (old : W64) (vt flags : Nat)
  /-- ATOMIC_RESEND (R306). An unanswered AMO request is resent after a port loss or 65,536 cycles. -/
  | atomicResend (q : Req)
  /-- LOCK_REQUEST (R327). A lock home grants, enqueues, probes or holds a LOCK or LKTRY request. -/
  | lockRequest (q : Req)
  /-- LKQ_REQUEST (R340). A lock home answers a lock query. -/
  | lkqRequest (q : Req)
  /-- LOCK_TABLE_RETRY (R324). A lock request refused for a full table is sent again after 256 cycles. -/
  | lockTableRetry (q : Req)
  /-- ENQUEUED (R324). An ENQUEUED reply frees the request's place in the AMO limit. -/
  | enqueued (q : Req)
  /-- LINK (R329). A LINK records the next waiter in an entry or a ghost. -/
  | lkLink (tgt : Waiter) (k : LKey) (w : Waiter)
  /-- GRANT (R329). A grant reaches a waiter, which then holds the lock, enters GRANTHOLD, or passes it on as a ghost. -/
  | grant (tgt : Waiter) (k : LKey) (status : Nat) (data : List Byte)
  /-- HANDOFF (R327). The lock home records the new holder. -/
  | handoff (k : LKey) (frm new : Waiter)
  /-- RELEASE (R327). The lock home frees, orphans or answers WAITLINK to a release. -/
  | lkRelease (k : LKey) (frm : Waiter) (status : Nat)
  /-- WAITLINK (R328). A WAITLINK reply makes the passing core wait for the LINK, then grant. -/
  | waitlink (tgt : Waiter) (k : LKey)
  /-- BREAK (R330). A holder's core loses the lock and passes it with status BROKEN. -/
  | lkBreak (tgt : Waiter) (k : LKey)
  /-- BREAKACK (R327). The lock home completes a break. -/
  | breakAck (k : LKey) (frm : Waiter) (next : Option Waiter) (released : Bool)
  /-- HOLD_DEADLINE (R327). A lock's hold deadline expires, and the home starts a break. -/
  | holdDeadline (k : LKey) (stamp : Nat)
  /-- LOCK_DEADLINE (R329). A waiting LOCK's deadline expires, and it retires TIMEOUT, leaving a ghost. -/
  | lockDeadline (xk eid : Nat)
  /-- SKIP_TIMER (R329). A GRANTHOLD skip timer ends, the grant is passed on and the waiter re-queued. -/
  | skipTimer (xk eid : Nat)
  /-- PROBE (R332). A deadlock probe hop is examined at a core and a lock home. -/
  | probe (q : Req) (hops : Nat) (h : Waiter) (first : Waiter)
  /-- PROBE_RESULT (R332). A probe result answers a parked LOCK with DEADLOCK, or performs it afresh. -/
  | probeResult (q : Req) (dead : Bool) (hops : Nat) (first : Waiter)
  /-- DEADLOCK_REPORT (R333). A dispatcher counts a deadlock and may write a record. -/
  | deadlockReport (vi : Nat) (line : W64) (xk hops first : Nat)
  /-- MESSAGE_ARRIVAL (R346). A destination core accepts a mailbox message, or answers FULL or MBTYPE. -/
  | messageArrival (m : Msg)
  /-- REOFFER (R347). A held message is re-offered 256 cycles after a refusal. -/
  | reoffer (m : Msg)
  /-- WITHDRAW (R347). A withdrawn held message decrements REFCNT at its destination. -/
  | withdraw (m : Msg)
  /-- MESSAGE_ANSWER (R347). An acceptance or refusal of a message reaches the sender's message unit. -/
  | messageAnswer (m : Msg) (ans : Nat)
  /-- HANDLER_RUN_START (R348). An idle handler context starts a run on a ready mailbox or queued work. -/
  | handlerRunStart (ck : Nat)
  /-- HBUDGET (R350). A handler run's budget of 65,536 cycles is spent, and the context traps. -/
  | hbudget (xk : Nat)
  /-- TASK (R354). A task arrives at a core's task queue, or is refused. -/
  | taskArrive (m : Msg)
  /-- TASK_START (R354). A queued task starts on an idle general context. -/
  | taskStart (ck : Nat)
  /-- CALLAT_REPLY (R355). A finished task's reply is written into the caller's cell, and the line is set full. -/
  | callatReply (caller : Caller) (cell : W64) (args : List W64) (status : Nat)
  /-- RWI_ARRIVAL (R356). The target core writes the word and raises the counter in one step. -/
  | rwiArrival (q : Req)
  /-- WATCH_REQUEST (R358). A home slice installs a watch binding and returns the word. -/
  | watchRequest (q : Req)
  /-- WATCH_RETRY (R358). A watch request refused for lack of bindings is sent again after 256 cycles. -/
  | watchRetry (q : Req)
  /-- FREEZE (R353). An actor command sets FRZ. -/
  | freeze (die : Nat)
  /-- THAW (R353). An actor command clears FRZ. -/
  | thaw (die : Nat)
  /-- EVICT (R353). An actor command moves the ring into the spill ring and writes the save image. -/
  | evict (die : Nat)
  /-- RESTORE (R353). An actor command reads the state back and places the actor areas. -/
  | restore (die : Nat)
  /-- ACTOR_RESUME (R353). An actor command starts replay of the spill ring and clears FRZ. -/
  | actorResume (die : Nat)
  /-- SPILL_REPLAY (R353). The oldest spill slot moves into the ring when there is room, and SPILL clears when the spill ring is empty. -/
  | spillReplay (ck mb : Nat)
  /-- IDLE_TIMEOUT (R397). IDLE retires after 65,536 ticks without an event. -/
  | idleTimeout (xk stamp : Nat)
  /-- YIELD_EXPIRY (R153). A yielding context becomes eligible again after 64 cycles. -/
  | yieldExpiry (xk stamp : Nat)
  /-- GTWAIT_EXPIRY (R311). GTIME reaches the value that a GTWAIT awaits, and it retires. -/
  | gtwaitExpiry (xk stamp : Nat)
  /-- CLAIM_REQUEST (R433). A result home resolves a SEAL, COMMIT or VOID claim against the header. -/
  | claimRequest (q : Req)
  /-- CLAIM_ANSWER (R435). A claim answer reaches the copy, which proceeds, is cancelled or fails. -/
  | claimAnswer (q : Req) (ans : ClaimAns)
  /-- CLAIM_RETRY (R433). A claim answered EARLY is sent again after 256 cycles. -/
  | claimRetry (q : Req)
  /-- WIN_NOTICE (R435). The dispatcher cancels the other copies and refunds pending backups. -/
  | winNotice (u : URef)
  /-- COMMIT_BUSY_RETRY (R437). A commit answered BUSY asks again after 256 cycles. -/
  | commitBusyRetry (q : Req)
  /-- STREAM_LINE (R437). A commit-stream line is written into the shadow buffer, or refused with STREAMFLT. -/
  | streamLine (q : Req) (refused : Bool)
  /-- PUBLISH (R438). Once the stream is performed, the home inverts LIVESEL and increments VERSION. -/
  | publish (q : Req)
  /-- GROUP_CLAIM (R439). A secondary home grants or refuses a commit-group claim. -/
  | groupClaim (q : Req)
  /-- CLAIM_RELEASE (R440). A dispatcher's release of a cancelled copy's claim reopens the header. -/
  | claimRelease (q : Req)
  /-- CANCEL_COPY (R440). A cancellation reaches a copy, which ends at its next boundary and releases its resources. -/
  | cancelCopy (xk reason : Nat) (u : Option URef)
  /-- ROWPWR (R405). A write requests a row voltage or boost, or is refused. -/
  | rowpwr (row : Nat) (value : W64)
  /-- COREPWR (R405). A write requests a core divider or opens the power switch, or is refused. -/
  | corepwr (pcore : Nat) (value : W64)
  /-- VOLTAGE_STEP (R404). A 10 mV row voltage step settles after 40 ticks. -/
  | voltageStep (row : Nat)
  /-- CLOCK_HOP (R406). A core's glitch-free clock hop completes. -/
  | clockHop (pcore : Nat)
  /-- DROOP (R408). A droop detector stretches the row's faster cores until the voltage recovers. -/
  | droop (row : Nat)
  /-- RAMP_STEP (R410). At each 4-tick step boundary, the limiter adjusts LVL and grants matrix steps and fillers. -/
  | rampStep
  /-- CONTROL_INTERVAL (R412). At each 1,250-tick boundary, the controller decides throttle, current limit and boost. -/
  | controlInterval
  /-- FABPWR_STAGGER (R414). A FABPWR command sends STAGGER to the masked devices. -/
  | fabpwrStagger (value : W64)
  /-- FABPWR_SLOW (R414). A FABPWR command sends SLOW to the masked devices. -/
  | fabpwrSlow (value : W64)
  /-- STAGGER (R414). A received STAGGER holds the device's rows from rising for its slot time. -/
  | stagger (nslot slotw : Nat)
  /-- SLOW (R414). A received SLOW sets a divider floor and throttles the device for SLOWD intervals. -/
  | slow (floor intervals : Nat)
  /-- SUPPLY_EMERGENCY (R415). The power stage signals an emergency, and every context of the package is power-halted. -/
  | supplyEmergency
  /-- EMERG (R415). Writing 1 to EMERG resumes the contexts that the power halt stopped. -/
  | emerg (value : W64)
  /-- TANTALUM_BOOT (R73). At reset, Tantalum checks its manifest and images, then releases the compute dies or records a failure. -/
  | tantalumBoot (manifest : Manifest) (flash : List (Option (List Byte)))
  /-- PORT_TRAINING (R70). A fabric port trains, runs SPDM and installs its keys before carrying other classes. -/
  | portTraining (port lanes : Nat)
  /-- NAK (R63). A flit fails authentication, and the sender resends from that flit onwards. -/
  | nak (port : Nat)
  /-- LINK_ACK (R63). A cumulative acknowledgement frees replay-buffer entries. -/
  | linkAck (port upto : Nat)
  /-- PERMIT_RETURN (R66). A returned permit restores receive-pool credit to its part. -/
  | permitReturn (port cls vi n : Nat) (shared : Bool)
  /-- PORT_DOWN (R60). A port loses lanes or fails authentication 16 times and goes down. -/
  | portDown (port : Nat)
  /-- KEY_ROLLOVER (R72). Tantalum rolls a direction's key after 2^40 flits or on request. -/
  | keyRollover (port : PortDir)
  /-- KEYDONE (R72). The receiver erases the old key and answers KEYACK. -/
  | keydone (port : Nat)
  /-- KEYACK (R72). The sender stops repeating KEYDONE, and the rollover ends. -/
  | keyack (port : Nat)
  /-- GET_VERSION (R75). An SPDM GET_VERSION request to Tantalum. -/
  | getVersion (requester : Nat)
  /-- GET_CAPABILITIES (R75). An SPDM GET_CAPABILITIES request. -/
  | getCapabilities (requester : Nat)
  /-- NEGOTIATE_ALGORITHMS (R75). An SPDM NEGOTIATE_ALGORITHMS request. -/
  | negotiateAlgorithms (requester : Nat)
  /-- GET_DIGESTS (R75). An SPDM GET_DIGESTS request. -/
  | getDigests (requester : Nat)
  /-- GET_CERTIFICATE (R75). An SPDM GET_CERTIFICATE request. -/
  | getCertificate (requester : Nat)
  /-- CHALLENGE (R75). An SPDM CHALLENGE request. -/
  | challenge (requester : Nat)
  /-- GET_MEASUREMENTS (R75). An SPDM GET_MEASUREMENTS request, returning the boot-time hashes. -/
  | getMeasurements (requester : Nat) (index : Nat)
  /-- KEY_EXCHANGE (R75). An SPDM KEY_EXCHANGE request. -/
  | keyExchange (requester : Nat)
  /-- FINISH (R75). An SPDM FINISH request. -/
  | finish (requester : Nat)
  /-- END_SESSION (R75). An SPDM END_SESSION request. -/
  | endSession (requester : Nat)
  /-- FATAL_ERROR (R452). A package-stopping error makes Tantalum write the fatal-error dump. -/
  | fatalError (cls dies : Nat)
  /-- REGISTER_WRITE (R7). A write to a register without behaviour of its own updates its RW fields. -/
  | registerWrite (offset : Nat) (value : W64)
  /-- ILL (R111). A fetched word whose major opcode is 0x00 or unassigned, or whose fn, op or cmd is unassigned, traps ILL at decode. -/
  | ill (w : Word)
  /-- FETCH_FAULT (R105). An instruction fetch fails on a bad PC, a missing translation, missing fetch permission or an uncorrectable error, and the context traps precisely at that PC. -/
  | fetchFault (code : Nat) (tval : W64)
  /-- BADOP (R53). The queue engine takes an entry whose OPC is none of the five opcodes, rejects it with BADOP and owes a completion record. -/
  | badop (queue : Nat)
  /-- MCHECK (R374). An uncorrectable error in a context's own register state is detected, and the context traps MCHECK at the next instruction with TVAL 0. -/
  | mcheck (xk : Nat)
  /-- VOLTAGE_RECOVERED (R408). The row voltage recovers after a droop, and stretching of the row's cores ends at the first cycle boundary after at least 32 ticks. -/
  | voltageRecovered (row : Nat)
  /-- EMERGENCY_CLEARED (R415). The power stage withdraws its supply-emergency signal, after which a write of 1 to EMERG may resume the power-halted contexts. -/
  | emergencyCleared
  deriving DecidableEq, Repr

end Sys2Proof
end

