-- ==== Sys2Proof/WellFormed.lean ====
section
/-! DEFINITION. Well-formed instructions: the field values that steps 2 to 4 of R111 admit, by R108, R113 to R122 and
R244, and for events the ranges of the numbers they carry. -/
namespace Sys2Proof

/-- A type code 0 to 13 (R108). -/
def tyOk (t : BitVec 4) : Bool := t.toNat ≤ 13
/-- The types of VADD and its like: 0 to 3 and 6 to 13 (R244). -/
def tyArith (t : BitVec 4) : Bool := t.toNat ≤ 13 && t.toNat ≠ 4 && t.toNat ≠ 5
/-- The computed float types 0 to 3 (R244). -/
def tyFloat (t : BitVec 4) : Bool := t.toNat ≤ 3
/-- The types of VABS and VNEG: 0 to 3 and 6 to 9 (R244). -/
def tySigned (t : BitVec 4) : Bool := t.toNat ≤ 3 || (6 ≤ t.toNat && t.toNat ≤ 9)
/-- The integer types 6 to 13 (R244). -/
def tyInt (t : BitVec 4) : Bool := 6 ≤ t.toNat && t.toNat ≤ 13
/-- The signed integer types 6 to 9 (R244). -/
def tySInt (t : BitVec 4) : Bool := 6 ≤ t.toNat && t.toNat ≤ 9
/-- The types of VQNT and VDQNT: 4, 5 and 6 (R244). -/
def tyQnt (t : BitVec 4) : Bool := 4 ≤ t.toNat && t.toNat ≤ 6
/-- A 5-bit field that names k0 to k7 (R108). -/
def kOk (k : BitVec 5) : Bool := k.toNat ≤ 7
/-- A scope code 0 to 11 (R108). -/
def scopeOk (s : BitVec 4) : Bool := s.toNat ≤ 11
/-- The control-register numbers that R125 assigns. -/
def crAssigned (n : Nat) : Bool :=
  n ≤ 0x017 || (0x020 ≤ n && n ≤ 0x02A) || (0x030 ≤ n && n ≤ 0x03B) || n = 0x040 || n = 0x041 || n = 0x042 ||
  (0x050 ≤ n && n ≤ 0x05F) || (0x400 ≤ n && n ≤ 0x6FF)

/-- An instruction that is a word, and not an event. -/
def Instr.isWord : Instr → Bool
  | .add _ _ _ => true
  | .sub _ _ _ => true
  | .and _ _ _ => true
  | .andn _ _ _ => true
  | .or _ _ _ => true
  | .xor _ _ _ => true
  | .sll _ _ _ => true
  | .srl _ _ _ => true
  | .sra _ _ _ => true
  | .mul _ _ _ => true
  | .mulh _ _ _ => true
  | .mulhn _ _ _ => true
  | .div _ _ _ => true
  | .divn _ _ _ => true
  | .rem _ _ _ => true
  | .remn _ _ _ => true
  | .min _ _ _ => true
  | .max _ _ _ => true
  | .minn _ _ _ => true
  | .maxn _ _ _ => true
  | .slt _ _ _ => true
  | .sltn _ _ _ => true
  | .seq _ _ _ => true
  | .clz _ _ => true
  | .ctz _ _ => true
  | .popc _ _ => true
  | .bext _ _ _ => true
  | .bins _ _ _ => true
  | .addi _ _ _ => true
  | .andi _ _ _ => true
  | .ori _ _ _ => true
  | .xori _ _ _ => true
  | .slti _ _ _ => true
  | .sltin _ _ _ => true
  | .slli _ _ _ => true
  | .srli _ _ _ => true
  | .srai _ _ _ => true
  | .lui _ _ => true
  | .apc _ _ => true
  | .jal _ _ => true
  | .jalr _ _ _ => true
  | .beq _ _ _ => true
  | .bne _ _ _ => true
  | .blt _ _ _ => true
  | .bge _ _ _ => true
  | .bltn _ _ _ => true
  | .bgen _ _ _ => true
  | .lb _ _ _ => true
  | .lbn _ _ _ => true
  | .lh _ _ _ => true
  | .lhn _ _ _ => true
  | .lw _ _ _ => true
  | .lwn _ _ _ => true
  | .ld _ _ _ => true
  | .sb _ _ _ => true
  | .sh _ _ _ => true
  | .sw _ _ _ => true
  | .sd _ _ _ => true
  | .stv _ _ _ => true
  | .pref _ => true
  | .l1wb _ => true
  | .l1inv _ => true
  | .hnew _ _ _ => true
  | .hgive _ _ _ => true
  | .hrev _ => true
  | .hchk _ _ => true
  | .fadd _ _ _ _ => true
  | .fsub _ _ _ _ => true
  | .fmul _ _ _ _ => true
  | .ffma _ _ _ _ => true
  | .ffms _ _ _ _ => true
  | .fdiv _ _ _ _ => true
  | .fsqrt _ _ _ => true
  | .fmin _ _ _ _ => true
  | .fmax _ _ _ _ => true
  | .fceq _ _ _ _ => true
  | .fclt _ _ _ _ => true
  | .fcle _ _ _ _ => true
  | .fcvt _ _ _ _ => true
  | .fclass _ _ _ => true
  | .vadd _ _ _ _ _ => true
  | .vsub _ _ _ _ _ => true
  | .vmul _ _ _ _ _ => true
  | .vfma _ _ _ _ _ => true
  | .vfms _ _ _ _ _ => true
  | .vmin _ _ _ _ _ => true
  | .vmax _ _ _ _ _ => true
  | .vabs _ _ _ _ => true
  | .vneg _ _ _ _ => true
  | .vand _ _ _ _ _ => true
  | .vor _ _ _ _ _ => true
  | .vxor _ _ _ _ _ => true
  | .vsll _ _ _ _ _ => true
  | .vsrl _ _ _ _ _ => true
  | .vsra _ _ _ _ _ => true
  | .vcmpeq _ _ _ _ _ => true
  | .vcmplt _ _ _ _ _ => true
  | .vcmple _ _ _ _ _ => true
  | .vsel _ _ _ _ _ => true
  | .vredadd _ _ _ _ => true
  | .vredmax _ _ _ _ => true
  | .vredmin _ _ _ _ => true
  | .vamax _ _ _ _ => true
  | .vcvt _ _ _ _ _ => true
  | .vqnt _ _ _ _ _ => true
  | .vdqnt _ _ _ _ _ => true
  | .vexp2 _ _ _ _ => true
  | .vlog2 _ _ _ _ => true
  | .vrcp _ _ _ _ => true
  | .vrsq _ _ _ _ => true
  | .vperm _ _ _ _ _ => true
  | .vshuf _ _ _ _ _ => true
  | .vbcast _ _ _ _ => true
  | .vext _ _ _ _ => true
  | .vins _ _ _ _ => true
  | .vld _ _ _ _ => true
  | .vst _ _ _ _ => true
  | .vlds _ _ _ _ _ => true
  | .vsts _ _ _ _ _ => true
  | .vgth _ _ _ _ _ => true
  | .vsct _ _ _ _ _ => true
  | .kand _ _ _ => true
  | .kor _ _ _ => true
  | .knot _ _ => true
  | .kmov _ _ => true
  | .kmovFromX _ _ => true
  | .kmovToX _ _ => true
  | .macq _ => true
  | .mrel _ => true
  | .mld _ _ => true
  | .mst _ _ => true
  | .mzero _ => true
  | .mma _ _ _ => true
  | .mmas _ _ _ _ => true
  | .madd _ _ _ => true
  | .mscl _ _ _ => true
  | .mcvt _ _ => true
  | .mtrn _ _ => true
  | .mgeo _ _ => true
  | .cpstat _ _ => true
  | .cpkill _ => true
  | .mkfull _ _ => true
  | .mkempty _ _ => true
  | .festat _ _ => true
  | .waddr _ _ => true
  | .loop _ _ _ => true
  | .mtc _ _ => true
  | .mfc _ _ => true
  | .cpgo _ => true
  | .fence _ _ => true
  | .ldacq _ _ _ => true
  | .strel _ _ _ => true
  | .gtwait _ => true
  | .amadd _ _ _ _ => true
  | .amand _ _ _ _ => true
  | .amor _ _ _ _ => true
  | .amxor _ _ _ _ => true
  | .ammin _ _ _ _ => true
  | .ammax _ _ _ _ => true
  | .amminn _ _ _ _ => true
  | .ammaxn _ _ _ _ => true
  | .amswp _ _ _ _ => true
  | .amcas _ _ _ _ => true
  | .amfadd _ _ _ => true
  | .amdadd _ _ _ => true
  | .lock _ _ _ => true
  | .unlock _ => true
  | .lktry _ _ => true
  | .lkq _ _ => true
  | .wait _ _ _ _ _ => true
  | .send _ _ => true
  | .sendn _ _ _ => true
  | .callat _ _ _ => true
  | .rwi _ _ => true
  | .arm _ _ _ => true
  | .disarm _ => true
  | .watch _ _ _ => true
  | .rewatch _ _ _ => true
  | .apin _ _ _ => true
  | .aunpin _ => true
  | .hmsg _ _ => true
  | .commit _ _ _ => true
  | .seal _ => true
  | .claimq _ _ => true
  | .rpin _ _ _ => true
  | .runpin _ => true
  | .wkq _ _ _ => true
  | .wkcan _ _ _ => true
  | .done => true
  | .trap _ => true
  | .eret => true
  | .idle => true
  | .brk _ => true
  | .tlbinv _ _ => true
  | .ctxsv _ => true
  | .ctxld _ => true
  | .fltack _ => true
  | .yield => true
  | .fmt _ _ _ _ => true
  | .receiverFault _ _ => false
  | .upcall _ => false
  | .notice _ _ _ => false
  | .fback _ _ => false
  | .faultRetry _ => false
  | .halt _ _ _ => false
  | .haltAll _ _ => false
  | .resume _ _ _ => false
  | .tlbcmd _ _ => false
  | .inval _ _ _ _ _ => false
  | .cmapswp _ _ => false
  | .swapTransferDone _ => false
  | .srsplit _ _ => false
  | .splitEffect _ => false
  | .tailw _ _ _ => false
  | .cheadw _ _ _ => false
  | .qtail _ _ => false
  | .qchead _ _ => false
  | .qctl _ _ => false
  | .victl _ _ => false
  | .keyInstall _ => false
  | .teardownComplete _ => false
  | .qLaunch _ => false
  | .qGraph _ => false
  | .qCancel _ => false
  | .hmsgEntry _ => false
  | .qfence _ => false
  | .entryUnreadable _ => false
  | .completionRecord _ => false
  | .cwrite _ => false
  | .hmsgDelivery _ => false
  | .hmsgRetry _ => false
  | .handlerMessage _ => false
  | .placementDecision _ => false
  | .blockSteal _ => false
  | .dispatchReport _ _ _ _ => false
  | .descriptorRead _ => false
  | .pinRequest _ => false
  | .pinReply _ _ _ => false
  | .pinRetry _ => false
  | .gangDrain _ _ => false
  | .gangReserve _ _ => false
  | .hedgeSample => false
  | .budgetCheck _ => false
  | .backupRequest _ => false
  | .hedgeRequestTimeout _ => false
  | .budgetRefill => false
  | .translate _ => false
  | .loadRequest _ => false
  | .loadReply _ _ _ _ => false
  | .storeRequest _ => false
  | .storeAck _ _ => false
  | .leaseExpiry _ _ _ => false
  | .writeBack _ => false
  | .flush _ _ _ _ _ => false
  | .flushAck _ _ _ => false
  | .handleUpdate _ => false
  | .copyBegin _ => false
  | .copyConditionalWrite _ _ => false
  | .copyComplete _ _ => false
  | .waddrRetry _ => false
  | .tileOpComplete _ _ => false
  | .segmentComplete _ => false
  | .scopeMiss _ => false
  | .atomicRequest _ => false
  | .atomicReply _ _ _ _ => false
  | .atomicResend _ => false
  | .lockRequest _ => false
  | .lkqRequest _ => false
  | .lockTableRetry _ => false
  | .enqueued _ => false
  | .lkLink _ _ _ => false
  | .grant _ _ _ _ => false
  | .handoff _ _ _ => false
  | .lkRelease _ _ _ => false
  | .waitlink _ _ => false
  | .lkBreak _ _ => false
  | .breakAck _ _ _ _ => false
  | .holdDeadline _ _ => false
  | .lockDeadline _ _ => false
  | .skipTimer _ _ => false
  | .probe _ _ _ _ => false
  | .probeResult _ _ _ _ => false
  | .deadlockReport _ _ _ _ _ => false
  | .messageArrival _ => false
  | .reoffer _ => false
  | .withdraw _ => false
  | .messageAnswer _ _ => false
  | .handlerRunStart _ => false
  | .hbudget _ => false
  | .taskArrive _ => false
  | .taskStart _ => false
  | .callatReply _ _ _ _ => false
  | .rwiArrival _ => false
  | .watchRequest _ => false
  | .watchRetry _ => false
  | .freeze _ => false
  | .thaw _ => false
  | .evict _ => false
  | .restore _ => false
  | .actorResume _ => false
  | .spillReplay _ _ => false
  | .idleTimeout _ _ => false
  | .yieldExpiry _ _ => false
  | .gtwaitExpiry _ _ => false
  | .claimRequest _ => false
  | .claimAnswer _ _ => false
  | .claimRetry _ => false
  | .winNotice _ => false
  | .commitBusyRetry _ => false
  | .streamLine _ _ => false
  | .publish _ => false
  | .groupClaim _ => false
  | .claimRelease _ => false
  | .cancelCopy _ _ _ => false
  | .rowpwr _ _ => false
  | .corepwr _ _ => false
  | .voltageStep _ => false
  | .clockHop _ => false
  | .droop _ => false
  | .rampStep => false
  | .controlInterval => false
  | .fabpwrStagger _ => false
  | .fabpwrSlow _ => false
  | .stagger _ _ => false
  | .slow _ _ => false
  | .supplyEmergency => false
  | .emerg _ => false
  | .tantalumBoot _ _ => false
  | .portTraining _ _ => false
  | .nak _ => false
  | .linkAck _ _ => false
  | .permitReturn _ _ _ _ _ => false
  | .portDown _ => false
  | .keyRollover _ => false
  | .keydone _ => false
  | .keyack _ => false
  | .getVersion _ => false
  | .getCapabilities _ => false
  | .negotiateAlgorithms _ => false
  | .getDigests _ => false
  | .getCertificate _ => false
  | .challenge _ => false
  | .getMeasurements _ _ => false
  | .keyExchange _ => false
  | .finish _ => false
  | .endSession _ => false
  | .fatalError _ _ => false
  | .registerWrite _ _ => false
  | .ill _ => false
  | .fetchFault _ _ => false
  | .badop _ => false
  | .mcheck _ => false
  | .voltageRecovered _ => false
  | .emergencyCleared => false

/-- The field values an instruction admits. A word that is not well formed does not decode (R111 steps 2 to 4). -/
def Instr.wf : Instr → Bool
  | .add _ _ _ => true
  | .sub _ _ _ => true
  | .and _ _ _ => true
  | .andn _ _ _ => true
  | .or _ _ _ => true
  | .xor _ _ _ => true
  | .sll _ _ _ => true
  | .srl _ _ _ => true
  | .sra _ _ _ => true
  | .mul _ _ _ => true
  | .mulh _ _ _ => true
  | .mulhn _ _ _ => true
  | .div _ _ _ => true
  | .divn _ _ _ => true
  | .rem _ _ _ => true
  | .remn _ _ _ => true
  | .min _ _ _ => true
  | .max _ _ _ => true
  | .minn _ _ _ => true
  | .maxn _ _ _ => true
  | .slt _ _ _ => true
  | .sltn _ _ _ => true
  | .seq _ _ _ => true
  | .clz _ _ => true
  | .ctz _ _ => true
  | .popc _ _ => true
  | .bext _ _ _ => true
  | .bins _ _ _ => true
  | .addi _ _ _ => true
  | .andi _ _ _ => true
  | .ori _ _ _ => true
  | .xori _ _ _ => true
  | .slti _ _ _ => true
  | .sltin _ _ _ => true
  | .slli _ _ _ => true
  | .srli _ _ _ => true
  | .srai _ _ _ => true
  | .lui _ _ => true
  | .apc _ _ => true
  | .jal _ _ => true
  | .jalr _ _ _ => true
  | .beq _ _ _ => true
  | .bne _ _ _ => true
  | .blt _ _ _ => true
  | .bge _ _ _ => true
  | .bltn _ _ _ => true
  | .bgen _ _ _ => true
  | .lb _ _ _ => true
  | .lbn _ _ _ => true
  | .lh _ _ _ => true
  | .lhn _ _ _ => true
  | .lw _ _ _ => true
  | .lwn _ _ _ => true
  | .ld _ _ _ => true
  | .sb _ _ _ => true
  | .sh _ _ _ => true
  | .sw _ _ _ => true
  | .sd _ _ _ => true
  | .stv _ _ _ => true
  | .pref _ => true
  | .l1wb _ => true
  | .l1inv _ => true
  | .hnew _ _ _ => true
  | .hgive _ _ _ => true
  | .hrev _ => true
  | .hchk _ _ => true
  | .fadd _ _ _ _ => true
  | .fsub _ _ _ _ => true
  | .fmul _ _ _ _ => true
  | .ffma _ _ _ _ => true
  | .ffms _ _ _ _ => true
  | .fdiv _ _ _ _ => true
  | .fsqrt _ _ _ => true
  | .fmin _ _ _ _ => true
  | .fmax _ _ _ _ => true
  | .fceq _ _ _ _ => true
  | .fclt _ _ _ _ => true
  | .fcle _ _ _ _ => true
  | .fcvt _ _ s t => tyOk t && tyOk s
  | .fclass _ _ _ => true
  | .vadd _ _ _ _ t => tyArith t
  | .vsub _ _ _ _ t => tyArith t
  | .vmul _ _ _ _ t => tyArith t
  | .vfma _ _ _ _ t => tyFloat t
  | .vfms _ _ _ _ t => tyFloat t
  | .vmin _ _ _ _ t => tyArith t
  | .vmax _ _ _ _ t => tyArith t
  | .vabs _ _ _ t => tySigned t
  | .vneg _ _ _ t => tySigned t
  | .vand _ _ _ _ t => tyOk t
  | .vor _ _ _ _ t => tyOk t
  | .vxor _ _ _ _ t => tyOk t
  | .vsll _ _ _ _ t => tyInt t
  | .vsrl _ _ _ _ t => tyInt t
  | .vsra _ _ _ _ t => tySInt t
  | .vcmpeq d _ _ _ t => tyOk t && kOk d
  | .vcmplt d _ _ _ t => tyOk t && kOk d
  | .vcmple d _ _ _ t => tyOk t && kOk d
  | .vsel _ _ _ _ t => tyOk t
  | .vredadd _ _ _ t => tyArith t
  | .vredmax _ _ _ t => tyArith t
  | .vredmin _ _ _ t => tyArith t
  | .vamax _ _ _ t => tyFloat t
  | .vcvt _ _ s _ t => tyOk t && tyOk s
  | .vqnt _ _ _ _ t => tyQnt t
  | .vdqnt _ _ _ _ t => tyQnt t
  | .vexp2 _ _ _ t => tyFloat t
  | .vlog2 _ _ _ t => tyFloat t
  | .vrcp _ _ _ t => tyFloat t
  | .vrsq _ _ _ t => tyFloat t
  | .vperm _ _ _ _ t => tyOk t
  | .vshuf _ _ _ _ t => tyOk t
  | .vbcast _ _ _ t => tyOk t
  | .vext _ _ _ t => tyOk t
  | .vins _ _ _ t => tyOk t
  | .vld _ _ _ t => tyOk t
  | .vst _ _ _ t => tyOk t
  | .vlds _ _ _ _ t => tyOk t
  | .vsts _ _ _ _ t => tyOk t
  | .vgth _ _ _ _ t => tyOk t
  | .vsct _ _ _ _ t => tyOk t
  | .kand d a b => kOk d && kOk a && kOk b
  | .kor d a b => kOk d && kOk a && kOk b
  | .knot d a => kOk d && kOk a
  | .kmov d a => kOk d && kOk a
  | .kmovFromX d _ => kOk d
  | .kmovToX _ a => kOk a
  | .macq _ => true
  | .mrel _ => true
  | .mld _ _ => true
  | .mst _ _ => true
  | .mzero _ => true
  | .mma _ _ _ => true
  | .mmas _ _ _ _ => true
  | .madd _ _ _ => true
  | .mscl _ _ _ => true
  | .mcvt _ _ => true
  | .mtrn _ _ => true
  | .mgeo _ l => decide (l.toNat ≤ 5)
  | .cpstat _ _ => true
  | .cpkill _ => true
  | .mkfull _ _ => true
  | .mkempty _ _ => true
  | .festat _ _ => true
  | .waddr _ _ => true
  | .loop _ _ _ => true
  | .mtc _ c => crAssigned c.toNat && decide (c.toNat ≠ 0x02A)
  | .mfc _ c => crAssigned c.toNat && decide (c.toNat ≠ 0x02A)
  | .cpgo _ => true
  | .fence s k => scopeOk s && decide (k.toNat ≠ 0)
  | .ldacq _ _ s => scopeOk s
  | .strel _ _ s => scopeOk s
  | .gtwait _ => true
  | .amadd _ _ _ _ => true
  | .amand _ _ _ _ => true
  | .amor _ _ _ _ => true
  | .amxor _ _ _ _ => true
  | .ammin _ _ _ _ => true
  | .ammax _ _ _ _ => true
  | .amminn _ _ _ _ => true
  | .ammaxn _ _ _ _ => true
  | .amswp _ _ _ _ => true
  | .amcas _ _ _ _ => true
  | .amfadd _ _ _ => true
  | .amdadd _ _ _ => true
  | .lock _ _ _ => true
  | .unlock _ => true
  | .lktry _ _ => true
  | .lkq _ _ => true
  | .wait _ _ _ _ _ => true
  | .send _ _ => true
  | .sendn _ _ _ => true
  | .callat _ _ _ => true
  | .rwi _ _ => true
  | .arm _ _ _ => true
  | .disarm _ => true
  | .watch _ _ _ => true
  | .rewatch _ _ _ => true
  | .apin _ _ _ => true
  | .aunpin _ => true
  | .hmsg _ _ => true
  | .commit _ _ _ => true
  | .seal _ => true
  | .claimq _ _ => true
  | .rpin _ _ _ => true
  | .runpin _ => true
  | .wkq _ _ _ => true
  | .wkcan _ _ _ => true
  | .done => true
  | .trap _ => true
  | .eret => true
  | .idle => true
  | .brk _ => true
  | .tlbinv _ _ => true
  | .ctxsv _ => true
  | .ctxld _ => true
  | .fltack _ => true
  | .yield => true
  | .fmt a b _ s => tyOk a && tyOk b && decide (s.toNat ≤ 1)
  | .receiverFault xk _ => decide (xk < 49152)
  | .upcall xk => decide (xk < 49152)
  | .notice ck _ _ => decide (ck < 6144)
  | .fback die _ => decide (die < 8)
  | .faultRetry _ => true
  | .halt die core ctx => decide (die < 8) && decide (core < 768) && decide (ctx < 8)
  | .haltAll die core => decide (die < 8) && decide (core < 768)
  | .resume die core ctx => decide (die < 8) && decide (core < 768) && decide (ctx < 8)
  | .tlbcmd vi _ => decide (vi < 64)
  | .inval die vi _ _ _ => decide (die < 8) && decide (vi < 64)
  | .cmapswp die _ => decide (die < 8)
  | .swapTransferDone die => decide (die < 8)
  | .srsplit die _ => decide (die < 8)
  | .splitEffect die => decide (die < 8)
  | .tailw vi slot _ => decide (vi < 64) && decide (slot < 4096)
  | .cheadw vi slot _ => decide (vi < 64) && decide (slot < 4096)
  | .qtail queue _ => decide (queue < 4096)
  | .qchead queue _ => decide (queue < 4096)
  | .qctl queue _ => decide (queue < 4096)
  | .victl vi _ => decide (vi < 64)
  | .keyInstall vi => decide (vi < 64)
  | .teardownComplete vi => decide (vi < 64)
  | .qLaunch queue => decide (queue < 4096)
  | .qGraph queue => decide (queue < 4096)
  | .qCancel queue => decide (queue < 4096)
  | .hmsgEntry queue => decide (queue < 4096)
  | .qfence queue => decide (queue < 4096)
  | .entryUnreadable queue => decide (queue < 4096)
  | .completionRecord queue => decide (queue < 4096)
  | .cwrite queue => decide (queue < 4096)
  | .hmsgDelivery _ => true
  | .hmsgRetry _ => true
  | .handlerMessage _ => true
  | .placementDecision die => decide (die < 8)
  | .blockSteal die => decide (die < 8)
  | .dispatchReport die _ _ _ => decide (die < 8)
  | .descriptorRead _ => true
  | .pinRequest _ => true
  | .pinReply _ _ _ => true
  | .pinRetry _ => true
  | .gangDrain vi _ => decide (vi < 64)
  | .gangReserve vi _ => decide (vi < 64)
  | .hedgeSample => true
  | .budgetCheck _ => true
  | .backupRequest _ => true
  | .hedgeRequestTimeout _ => true
  | .budgetRefill => true
  | .translate _ => true
  | .loadRequest _ => true
  | .loadReply _ _ _ _ => true
  | .storeRequest _ => true
  | .storeAck _ _ => true
  | .leaseExpiry ck vi _ => decide (ck < 6144) && decide (vi < 64)
  | .writeBack _ => true
  | .flush ck vi _ _ die => decide (ck < 6144) && decide (vi < 64) && decide (die < 8)
  | .flushAck die vi _ => decide (die < 8) && decide (vi < 64)
  | .handleUpdate _ => true
  | .copyBegin ck => decide (ck < 6144)
  | .copyConditionalWrite ck _ => decide (ck < 6144)
  | .copyComplete ck _ => decide (ck < 6144)
  | .waddrRetry _ => true
  | .tileOpComplete xk _ => decide (xk < 49152)
  | .segmentComplete xk => decide (xk < 49152)
  | .scopeMiss _ => true
  | .atomicRequest _ => true
  | .atomicReply _ _ _ _ => true
  | .atomicResend _ => true
  | .lockRequest _ => true
  | .lkqRequest _ => true
  | .lockTableRetry _ => true
  | .enqueued _ => true
  | .lkLink _ _ _ => true
  | .grant _ _ _ _ => true
  | .handoff _ _ _ => true
  | .lkRelease _ _ _ => true
  | .waitlink _ _ => true
  | .lkBreak _ _ => true
  | .breakAck _ _ _ _ => true
  | .holdDeadline _ _ => true
  | .lockDeadline xk _ => decide (xk < 49152)
  | .skipTimer xk _ => decide (xk < 49152)
  | .probe _ _ _ _ => true
  | .probeResult _ _ _ _ => true
  | .deadlockReport vi _ xk _ _ => decide (vi < 64) && decide (xk < 49152)
  | .messageArrival _ => true
  | .reoffer _ => true
  | .withdraw _ => true
  | .messageAnswer _ _ => true
  | .handlerRunStart ck => decide (ck < 6144)
  | .hbudget xk => decide (xk < 49152)
  | .taskArrive _ => true
  | .taskStart ck => decide (ck < 6144)
  | .callatReply caller _ _ _ => decide (caller.vi < 64)
  | .rwiArrival _ => true
  | .watchRequest _ => true
  | .watchRetry _ => true
  | .freeze die => decide (die < 8)
  | .thaw die => decide (die < 8)
  | .evict die => decide (die < 8)
  | .restore die => decide (die < 8)
  | .actorResume die => decide (die < 8)
  | .spillReplay ck mb => decide (ck < 6144) && decide (mb < 16)
  | .idleTimeout xk _ => decide (xk < 49152)
  | .yieldExpiry xk _ => decide (xk < 49152)
  | .gtwaitExpiry xk _ => decide (xk < 49152)
  | .claimRequest _ => true
  | .claimAnswer _ _ => true
  | .claimRetry _ => true
  | .winNotice _ => true
  | .commitBusyRetry _ => true
  | .streamLine _ _ => true
  | .publish _ => true
  | .groupClaim _ => true
  | .claimRelease _ => true
  | .cancelCopy xk _ _ => decide (xk < 49152)
  | .rowpwr row _ => decide (row < 384)
  | .corepwr pcore _ => decide (pcore < 6144)
  | .voltageStep row => decide (row < 384)
  | .clockHop pcore => decide (pcore < 6144)
  | .droop row => decide (row < 384)
  | .rampStep => true
  | .controlInterval => true
  | .fabpwrStagger _ => true
  | .fabpwrSlow _ => true
  | .stagger _ _ => true
  | .slow _ _ => true
  | .supplyEmergency => true
  | .emerg _ => true
  | .tantalumBoot _ _ => true
  | .portTraining port _ => decide (port < 24)
  | .nak port => decide (port < 24)
  | .linkAck port _ => decide (port < 24)
  | .permitReturn port _ vi _ _ => decide (port < 24) && decide (vi < 64)
  | .portDown port => decide (port < 24)
  | .keyRollover port => decide (port.port < 24)
  | .keydone port => decide (port < 24)
  | .keyack port => decide (port < 24)
  | .getVersion _ => true
  | .getCapabilities _ => true
  | .negotiateAlgorithms _ => true
  | .getDigests _ => true
  | .getCertificate _ => true
  | .challenge _ => true
  | .getMeasurements _ _ => true
  | .keyExchange _ => true
  | .finish _ => true
  | .endSession _ => true
  | .fatalError _ _ => true
  | .registerWrite _ _ => true
  | .ill _ => true
  | .fetchFault _ _ => true
  | .badop queue => decide (queue < 4096)
  | .mcheck xk => decide (xk < 49152)
  | .voltageRecovered row => decide (row < 384)
  | .emergencyCleared => true

end Sys2Proof
end

