-- ==== Sys2Proof/Decode.lean ====
section
/-! DEFINITION. The decoder of instruction words (R104, R108 to R122) and the encoder, both from the field layout of
R109 and the opcode map R112 to R122. A word decodes when its fields are well formed and every bit that the
instruction does not use is zero (R111 steps 1 to 4). -/
namespace Sys2Proof

/-- The `n` bits of the word `w` from bit `lo` up. -/
def fld (w lo n : Nat) : BitVec n := BitVec.ofNat n (w / 2 ^ lo)

/-- The word of an instruction: its opcode and selector bits plus each field in its place. An event has none: 0, the
word that is always illegal (R112). -/
def encode : Instr → Word
  | .add d a b => BitVec.ofNat 32 (67108864 + d.toNat * 2097152 + a.toNat * 65536 + b.toNat * 2048)
  | .sub d a b => BitVec.ofNat 32 (67108865 + d.toNat * 2097152 + a.toNat * 65536 + b.toNat * 2048)
  | .and d a b => BitVec.ofNat 32 (67108866 + d.toNat * 2097152 + a.toNat * 65536 + b.toNat * 2048)
  | .andn d a b => BitVec.ofNat 32 (67108867 + d.toNat * 2097152 + a.toNat * 65536 + b.toNat * 2048)
  | .or d a b => BitVec.ofNat 32 (67108868 + d.toNat * 2097152 + a.toNat * 65536 + b.toNat * 2048)
  | .xor d a b => BitVec.ofNat 32 (67108869 + d.toNat * 2097152 + a.toNat * 65536 + b.toNat * 2048)
  | .sll d a b => BitVec.ofNat 32 (67108870 + d.toNat * 2097152 + a.toNat * 65536 + b.toNat * 2048)
  | .srl d a b => BitVec.ofNat 32 (67108871 + d.toNat * 2097152 + a.toNat * 65536 + b.toNat * 2048)
  | .sra d a b => BitVec.ofNat 32 (67108872 + d.toNat * 2097152 + a.toNat * 65536 + b.toNat * 2048)
  | .mul d a b => BitVec.ofNat 32 (67108873 + d.toNat * 2097152 + a.toNat * 65536 + b.toNat * 2048)
  | .mulh d a b => BitVec.ofNat 32 (67108874 + d.toNat * 2097152 + a.toNat * 65536 + b.toNat * 2048)
  | .mulhn d a b => BitVec.ofNat 32 (67108875 + d.toNat * 2097152 + a.toNat * 65536 + b.toNat * 2048)
  | .div d a b => BitVec.ofNat 32 (67108876 + d.toNat * 2097152 + a.toNat * 65536 + b.toNat * 2048)
  | .divn d a b => BitVec.ofNat 32 (67108877 + d.toNat * 2097152 + a.toNat * 65536 + b.toNat * 2048)
  | .rem d a b => BitVec.ofNat 32 (67108878 + d.toNat * 2097152 + a.toNat * 65536 + b.toNat * 2048)
  | .remn d a b => BitVec.ofNat 32 (67108879 + d.toNat * 2097152 + a.toNat * 65536 + b.toNat * 2048)
  | .min d a b => BitVec.ofNat 32 (67108880 + d.toNat * 2097152 + a.toNat * 65536 + b.toNat * 2048)
  | .max d a b => BitVec.ofNat 32 (67108881 + d.toNat * 2097152 + a.toNat * 65536 + b.toNat * 2048)
  | .minn d a b => BitVec.ofNat 32 (67108882 + d.toNat * 2097152 + a.toNat * 65536 + b.toNat * 2048)
  | .maxn d a b => BitVec.ofNat 32 (67108883 + d.toNat * 2097152 + a.toNat * 65536 + b.toNat * 2048)
  | .slt d a b => BitVec.ofNat 32 (67108884 + d.toNat * 2097152 + a.toNat * 65536 + b.toNat * 2048)
  | .sltn d a b => BitVec.ofNat 32 (67108885 + d.toNat * 2097152 + a.toNat * 65536 + b.toNat * 2048)
  | .seq d a b => BitVec.ofNat 32 (67108886 + d.toNat * 2097152 + a.toNat * 65536 + b.toNat * 2048)
  | .clz d a => BitVec.ofNat 32 (67108887 + d.toNat * 2097152 + a.toNat * 65536)
  | .ctz d a => BitVec.ofNat 32 (67108888 + d.toNat * 2097152 + a.toNat * 65536)
  | .popc d a => BitVec.ofNat 32 (67108889 + d.toNat * 2097152 + a.toNat * 65536)
  | .bext d a b => BitVec.ofNat 32 (67108890 + d.toNat * 2097152 + a.toNat * 65536 + b.toNat * 2048)
  | .bins d a b => BitVec.ofNat 32 (67108891 + d.toNat * 2097152 + a.toNat * 65536 + b.toNat * 2048)
  | .addi d a i => BitVec.ofNat 32 (134217728 + d.toNat * 2097152 + a.toNat * 65536 + i.toNat)
  | .andi d a i => BitVec.ofNat 32 (201326592 + d.toNat * 2097152 + a.toNat * 65536 + i.toNat)
  | .ori d a i => BitVec.ofNat 32 (268435456 + d.toNat * 2097152 + a.toNat * 65536 + i.toNat)
  | .xori d a i => BitVec.ofNat 32 (335544320 + d.toNat * 2097152 + a.toNat * 65536 + i.toNat)
  | .slti d a i => BitVec.ofNat 32 (402653184 + d.toNat * 2097152 + a.toNat * 65536 + i.toNat)
  | .sltin d a i => BitVec.ofNat 32 (469762048 + d.toNat * 2097152 + a.toNat * 65536 + i.toNat)
  | .slli d a s => BitVec.ofNat 32 (536870912 + d.toNat * 2097152 + a.toNat * 65536 + s.toNat)
  | .srli d a s => BitVec.ofNat 32 (603979776 + d.toNat * 2097152 + a.toNat * 65536 + s.toNat)
  | .srai d a s => BitVec.ofNat 32 (671088640 + d.toNat * 2097152 + a.toNat * 65536 + s.toNat)
  | .lui d i => BitVec.ofNat 32 (738197504 + d.toNat * 2097152 + i.toNat)
  | .apc d i => BitVec.ofNat 32 (805306368 + d.toNat * 2097152 + i.toNat)
  | .jal d o => BitVec.ofNat 32 (1073741824 + d.toNat * 2097152 + o.toNat)
  | .jalr d a i => BitVec.ofNat 32 (1140850688 + d.toNat * 2097152 + a.toNat * 65536 + i.toNat)
  | .beq a b o => BitVec.ofNat 32 (1207959552 + a.toNat * 2097152 + b.toNat * 65536 + o.toNat)
  | .bne a b o => BitVec.ofNat 32 (1275068416 + a.toNat * 2097152 + b.toNat * 65536 + o.toNat)
  | .blt a b o => BitVec.ofNat 32 (1342177280 + a.toNat * 2097152 + b.toNat * 65536 + o.toNat)
  | .bge a b o => BitVec.ofNat 32 (1409286144 + a.toNat * 2097152 + b.toNat * 65536 + o.toNat)
  | .bltn a b o => BitVec.ofNat 32 (1476395008 + a.toNat * 2097152 + b.toNat * 65536 + o.toNat)
  | .bgen a b o => BitVec.ofNat 32 (1543503872 + a.toNat * 2097152 + b.toNat * 65536 + o.toNat)
  | .lb d a o => BitVec.ofNat 32 (1610612736 + d.toNat * 2097152 + a.toNat * 65536 + o.toNat * 8)
  | .lbn d a o => BitVec.ofNat 32 (1610612737 + d.toNat * 2097152 + a.toNat * 65536 + o.toNat * 8)
  | .lh d a o => BitVec.ofNat 32 (1610612738 + d.toNat * 2097152 + a.toNat * 65536 + o.toNat * 8)
  | .lhn d a o => BitVec.ofNat 32 (1610612739 + d.toNat * 2097152 + a.toNat * 65536 + o.toNat * 8)
  | .lw d a o => BitVec.ofNat 32 (1610612740 + d.toNat * 2097152 + a.toNat * 65536 + o.toNat * 8)
  | .lwn d a o => BitVec.ofNat 32 (1610612741 + d.toNat * 2097152 + a.toNat * 65536 + o.toNat * 8)
  | .ld d a o => BitVec.ofNat 32 (1610612742 + d.toNat * 2097152 + a.toNat * 65536 + o.toNat * 8)
  | .sb s a o => BitVec.ofNat 32 (1677721600 + s.toNat * 2097152 + a.toNat * 65536 + o.toNat * 8)
  | .sh s a o => BitVec.ofNat 32 (1677721601 + s.toNat * 2097152 + a.toNat * 65536 + o.toNat * 8)
  | .sw s a o => BitVec.ofNat 32 (1677721602 + s.toNat * 2097152 + a.toNat * 65536 + o.toNat * 8)
  | .sd s a o => BitVec.ofNat 32 (1677721603 + s.toNat * 2097152 + a.toNat * 65536 + o.toNat * 8)
  | .stv d a b => BitVec.ofNat 32 (1744830464 + d.toNat * 2097152 + a.toNat * 65536 + b.toNat * 2048)
  | .pref a => BitVec.ofNat 32 (1744830465 + a.toNat * 65536)
  | .l1wb a => BitVec.ofNat 32 (1744830466 + a.toNat * 65536)
  | .l1inv a => BitVec.ofNat 32 (1744830467 + a.toNat * 65536)
  | .hnew d a b => BitVec.ofNat 32 (1744830468 + d.toNat * 2097152 + a.toNat * 65536 + b.toNat * 2048)
  | .hgive d a b => BitVec.ofNat 32 (1744830469 + d.toNat * 2097152 + a.toNat * 65536 + b.toNat * 2048)
  | .hrev a => BitVec.ofNat 32 (1744830470 + a.toNat * 65536)
  | .hchk d a => BitVec.ofNat 32 (1744830471 + d.toNat * 2097152 + a.toNat * 65536)
  | .fadd d a b t => BitVec.ofNat 32 (2147483648 + d.toNat * 2097152 + a.toNat * 65536 + b.toNat * 2048 + t.toNat * 16)
  | .fsub d a b t => BitVec.ofNat 32 (2147483649 + d.toNat * 2097152 + a.toNat * 65536 + b.toNat * 2048 + t.toNat * 16)
  | .fmul d a b t => BitVec.ofNat 32 (2147483650 + d.toNat * 2097152 + a.toNat * 65536 + b.toNat * 2048 + t.toNat * 16)
  | .ffma d a b t => BitVec.ofNat 32 (2147483651 + d.toNat * 2097152 + a.toNat * 65536 + b.toNat * 2048 + t.toNat * 16)
  | .ffms d a b t => BitVec.ofNat 32 (2147483652 + d.toNat * 2097152 + a.toNat * 65536 + b.toNat * 2048 + t.toNat * 16)
  | .fdiv d a b t => BitVec.ofNat 32 (2147483653 + d.toNat * 2097152 + a.toNat * 65536 + b.toNat * 2048 + t.toNat * 16)
  | .fsqrt d a t => BitVec.ofNat 32 (2147483654 + d.toNat * 2097152 + a.toNat * 65536 + t.toNat * 16)
  | .fmin d a b t => BitVec.ofNat 32 (2147483655 + d.toNat * 2097152 + a.toNat * 65536 + b.toNat * 2048 + t.toNat * 16)
  | .fmax d a b t => BitVec.ofNat 32 (2147483656 + d.toNat * 2097152 + a.toNat * 65536 + b.toNat * 2048 + t.toNat * 16)
  | .fceq d a b t => BitVec.ofNat 32 (2147483657 + d.toNat * 2097152 + a.toNat * 65536 + b.toNat * 2048 + t.toNat * 16)
  | .fclt d a b t => BitVec.ofNat 32 (2147483658 + d.toNat * 2097152 + a.toNat * 65536 + b.toNat * 2048 + t.toNat * 16)
  | .fcle d a b t => BitVec.ofNat 32 (2147483659 + d.toNat * 2097152 + a.toNat * 65536 + b.toNat * 2048 + t.toNat * 16)
  | .fcvt d a s t => BitVec.ofNat 32 (2147483660 + d.toNat * 2097152 + a.toNat * 65536 + s.toNat * 2048 + t.toNat * 16)
  | .fclass d a t => BitVec.ofNat 32 (2147483661 + d.toNat * 2097152 + a.toNat * 65536 + t.toNat * 16)
  | .vadd d a b k t => BitVec.ofNat 32 (2684354560 + d.toNat * 2097152 + a.toNat * 65536 + b.toNat * 2048 + k.toNat * 256 + t.toNat * 16)
  | .vsub d a b k t => BitVec.ofNat 32 (2684354561 + d.toNat * 2097152 + a.toNat * 65536 + b.toNat * 2048 + k.toNat * 256 + t.toNat * 16)
  | .vmul d a b k t => BitVec.ofNat 32 (2684354562 + d.toNat * 2097152 + a.toNat * 65536 + b.toNat * 2048 + k.toNat * 256 + t.toNat * 16)
  | .vfma d a b k t => BitVec.ofNat 32 (2684354563 + d.toNat * 2097152 + a.toNat * 65536 + b.toNat * 2048 + k.toNat * 256 + t.toNat * 16)
  | .vfms d a b k t => BitVec.ofNat 32 (2684354564 + d.toNat * 2097152 + a.toNat * 65536 + b.toNat * 2048 + k.toNat * 256 + t.toNat * 16)
  | .vmin d a b k t => BitVec.ofNat 32 (2684354565 + d.toNat * 2097152 + a.toNat * 65536 + b.toNat * 2048 + k.toNat * 256 + t.toNat * 16)
  | .vmax d a b k t => BitVec.ofNat 32 (2684354566 + d.toNat * 2097152 + a.toNat * 65536 + b.toNat * 2048 + k.toNat * 256 + t.toNat * 16)
  | .vabs d a k t => BitVec.ofNat 32 (2684354567 + d.toNat * 2097152 + a.toNat * 65536 + k.toNat * 256 + t.toNat * 16)
  | .vneg d a k t => BitVec.ofNat 32 (2684354568 + d.toNat * 2097152 + a.toNat * 65536 + k.toNat * 256 + t.toNat * 16)
  | .vand d a b k t => BitVec.ofNat 32 (2684354569 + d.toNat * 2097152 + a.toNat * 65536 + b.toNat * 2048 + k.toNat * 256 + t.toNat * 16)
  | .vor d a b k t => BitVec.ofNat 32 (2684354570 + d.toNat * 2097152 + a.toNat * 65536 + b.toNat * 2048 + k.toNat * 256 + t.toNat * 16)
  | .vxor d a b k t => BitVec.ofNat 32 (2684354571 + d.toNat * 2097152 + a.toNat * 65536 + b.toNat * 2048 + k.toNat * 256 + t.toNat * 16)
  | .vsll d a b k t => BitVec.ofNat 32 (2684354572 + d.toNat * 2097152 + a.toNat * 65536 + b.toNat * 2048 + k.toNat * 256 + t.toNat * 16)
  | .vsrl d a b k t => BitVec.ofNat 32 (2684354573 + d.toNat * 2097152 + a.toNat * 65536 + b.toNat * 2048 + k.toNat * 256 + t.toNat * 16)
  | .vsra d a b k t => BitVec.ofNat 32 (2684354574 + d.toNat * 2097152 + a.toNat * 65536 + b.toNat * 2048 + k.toNat * 256 + t.toNat * 16)
  | .vcmpeq d a b k t => BitVec.ofNat 32 (2751463424 + d.toNat * 2097152 + a.toNat * 65536 + b.toNat * 2048 + k.toNat * 256 + t.toNat * 16)
  | .vcmplt d a b k t => BitVec.ofNat 32 (2751463425 + d.toNat * 2097152 + a.toNat * 65536 + b.toNat * 2048 + k.toNat * 256 + t.toNat * 16)
  | .vcmple d a b k t => BitVec.ofNat 32 (2751463426 + d.toNat * 2097152 + a.toNat * 65536 + b.toNat * 2048 + k.toNat * 256 + t.toNat * 16)
  | .vsel d a b k t => BitVec.ofNat 32 (2751463427 + d.toNat * 2097152 + a.toNat * 65536 + b.toNat * 2048 + k.toNat * 256 + t.toNat * 16)
  | .vredadd d a k t => BitVec.ofNat 32 (2751463428 + d.toNat * 2097152 + a.toNat * 65536 + k.toNat * 256 + t.toNat * 16)
  | .vredmax d a k t => BitVec.ofNat 32 (2751463429 + d.toNat * 2097152 + a.toNat * 65536 + k.toNat * 256 + t.toNat * 16)
  | .vredmin d a k t => BitVec.ofNat 32 (2751463430 + d.toNat * 2097152 + a.toNat * 65536 + k.toNat * 256 + t.toNat * 16)
  | .vamax d a k t => BitVec.ofNat 32 (2751463431 + d.toNat * 2097152 + a.toNat * 65536 + k.toNat * 256 + t.toNat * 16)
  | .vcvt d a s k t => BitVec.ofNat 32 (2818572288 + d.toNat * 2097152 + a.toNat * 65536 + s.toNat * 2048 + k.toNat * 256 + t.toNat * 16)
  | .vqnt d a b k t => BitVec.ofNat 32 (2818572289 + d.toNat * 2097152 + a.toNat * 65536 + b.toNat * 2048 + k.toNat * 256 + t.toNat * 16)
  | .vdqnt d a b k t => BitVec.ofNat 32 (2818572290 + d.toNat * 2097152 + a.toNat * 65536 + b.toNat * 2048 + k.toNat * 256 + t.toNat * 16)
  | .vexp2 d a k t => BitVec.ofNat 32 (2818572291 + d.toNat * 2097152 + a.toNat * 65536 + k.toNat * 256 + t.toNat * 16)
  | .vlog2 d a k t => BitVec.ofNat 32 (2818572292 + d.toNat * 2097152 + a.toNat * 65536 + k.toNat * 256 + t.toNat * 16)
  | .vrcp d a k t => BitVec.ofNat 32 (2818572293 + d.toNat * 2097152 + a.toNat * 65536 + k.toNat * 256 + t.toNat * 16)
  | .vrsq d a k t => BitVec.ofNat 32 (2818572294 + d.toNat * 2097152 + a.toNat * 65536 + k.toNat * 256 + t.toNat * 16)
  | .vperm d a b k t => BitVec.ofNat 32 (2885681152 + d.toNat * 2097152 + a.toNat * 65536 + b.toNat * 2048 + k.toNat * 256 + t.toNat * 16)
  | .vshuf d a b k t => BitVec.ofNat 32 (2885681153 + d.toNat * 2097152 + a.toNat * 65536 + b.toNat * 2048 + k.toNat * 256 + t.toNat * 16)
  | .vbcast d a k t => BitVec.ofNat 32 (2885681154 + d.toNat * 2097152 + a.toNat * 65536 + k.toNat * 256 + t.toNat * 16)
  | .vext d a b t => BitVec.ofNat 32 (2885681155 + d.toNat * 2097152 + a.toNat * 65536 + b.toNat * 2048 + t.toNat * 16)
  | .vins d a b t => BitVec.ofNat 32 (2885681156 + d.toNat * 2097152 + a.toNat * 65536 + b.toNat * 2048 + t.toNat * 16)
  | .vld d a k t => BitVec.ofNat 32 (2952790016 + d.toNat * 2097152 + a.toNat * 65536 + k.toNat * 256 + t.toNat * 16)
  | .vst d a k t => BitVec.ofNat 32 (2952790017 + d.toNat * 2097152 + a.toNat * 65536 + k.toNat * 256 + t.toNat * 16)
  | .vlds d a b k t => BitVec.ofNat 32 (2952790018 + d.toNat * 2097152 + a.toNat * 65536 + b.toNat * 2048 + k.toNat * 256 + t.toNat * 16)
  | .vsts d a b k t => BitVec.ofNat 32 (2952790019 + d.toNat * 2097152 + a.toNat * 65536 + b.toNat * 2048 + k.toNat * 256 + t.toNat * 16)
  | .vgth d a b k t => BitVec.ofNat 32 (2952790020 + d.toNat * 2097152 + a.toNat * 65536 + b.toNat * 2048 + k.toNat * 256 + t.toNat * 16)
  | .vsct d a b k t => BitVec.ofNat 32 (2952790021 + d.toNat * 2097152 + a.toNat * 65536 + b.toNat * 2048 + k.toNat * 256 + t.toNat * 16)
  | .kand d a b => BitVec.ofNat 32 (3019898880 + d.toNat * 2097152 + a.toNat * 65536 + b.toNat * 2048)
  | .kor d a b => BitVec.ofNat 32 (3019898881 + d.toNat * 2097152 + a.toNat * 65536 + b.toNat * 2048)
  | .knot d a => BitVec.ofNat 32 (3019898882 + d.toNat * 2097152 + a.toNat * 65536)
  | .kmov d a => BitVec.ofNat 32 (3019898883 + d.toNat * 2097152 + a.toNat * 65536)
  | .kmovFromX d a => BitVec.ofNat 32 (3019898899 + d.toNat * 2097152 + a.toNat * 65536)
  | .kmovToX d a => BitVec.ofNat 32 (3019898915 + d.toNat * 2097152 + a.toNat * 65536)
  | .macq d => BitVec.ofNat 32 (3221225472 + d.toNat * 8388608)
  | .mrel d => BitVec.ofNat 32 (3221225473 + d.toNat * 8388608)
  | .mld d s => BitVec.ofNat 32 (3221225474 + d.toNat * 8388608 + s.toNat * 4096)
  | .mst d s => BitVec.ofNat 32 (3221225475 + d.toNat * 8388608 + s.toNat * 4096)
  | .mzero d => BitVec.ofNat 32 (3221225476 + d.toNat * 8388608)
  | .mma d a b => BitVec.ofNat 32 (3221225477 + d.toNat * 8388608 + a.toNat * 1048576 + b.toNat * 131072)
  | .mmas d a b m => BitVec.ofNat 32 (3221225478 + d.toNat * 8388608 + a.toNat * 1048576 + b.toNat * 131072 + m.toNat * 512)
  | .madd d a b => BitVec.ofNat 32 (3221225479 + d.toNat * 8388608 + a.toNat * 1048576 + b.toNat * 131072)
  | .mscl d a s => BitVec.ofNat 32 (3221225480 + d.toNat * 8388608 + a.toNat * 1048576 + s.toNat * 4096)
  | .mcvt d a => BitVec.ofNat 32 (3221225481 + d.toNat * 8388608 + a.toNat * 1048576)
  | .mtrn d a => BitVec.ofNat 32 (3221225482 + d.toNat * 8388608 + a.toNat * 1048576)
  | .mgeo s l => BitVec.ofNat 32 (3221225483 + s.toNat * 4096 + l.toNat * 512)
  | .cpstat a d => BitVec.ofNat 32 (3489660928 + a.toNat * 2048 + d.toNat * 2)
  | .cpkill a => BitVec.ofNat 32 (3489726464 + a.toNat * 2048)
  | .mkfull a b => BitVec.ofNat 32 (3498049536 + a.toNat * 2048 + b.toNat * 64)
  | .mkempty a b => BitVec.ofNat 32 (3498115072 + a.toNat * 2048 + b.toNat * 64)
  | .festat a d => BitVec.ofNat 32 (3498180608 + a.toNat * 2048 + d.toNat * 2)
  | .waddr a b => BitVec.ofNat 32 (3498246144 + a.toNat * 2048 + b.toNat * 64)
  | .loop l a b => BitVec.ofNat 32 (3506438144 + l.toNat * 65536 + a.toNat * 2048 + b.toNat * 64)
  | .mtc a c => BitVec.ofNat 32 (3623878656 + a.toNat * 65536 + c.toNat)
  | .mfc d c => BitVec.ofNat 32 (3690987520 + d.toNat * 2097152 + c.toNat)
  | .cpgo d => BitVec.ofNat 32 (3690987562 + d.toNat * 2097152)
  | .fence s k => BitVec.ofNat 32 (3758096384 + s.toNat * 128 + k.toNat * 32)
  | .ldacq d a s => BitVec.ofNat 32 (3758096385 + d.toNat * 2097152 + a.toNat * 65536 + s.toNat * 128)
  | .strel a b s => BitVec.ofNat 32 (3758096386 + a.toNat * 65536 + b.toNat * 2048 + s.toNat * 128)
  | .gtwait a => BitVec.ofNat 32 (3758096387 + a.toNat * 65536)
  | .amadd d a b w => BitVec.ofNat 32 (3825205248 + d.toNat * 2097152 + a.toNat * 65536 + b.toNat * 2048 + w.toNat * 32)
  | .amand d a b w => BitVec.ofNat 32 (3825205249 + d.toNat * 2097152 + a.toNat * 65536 + b.toNat * 2048 + w.toNat * 32)
  | .amor d a b w => BitVec.ofNat 32 (3825205250 + d.toNat * 2097152 + a.toNat * 65536 + b.toNat * 2048 + w.toNat * 32)
  | .amxor d a b w => BitVec.ofNat 32 (3825205251 + d.toNat * 2097152 + a.toNat * 65536 + b.toNat * 2048 + w.toNat * 32)
  | .ammin d a b w => BitVec.ofNat 32 (3825205252 + d.toNat * 2097152 + a.toNat * 65536 + b.toNat * 2048 + w.toNat * 32)
  | .ammax d a b w => BitVec.ofNat 32 (3825205253 + d.toNat * 2097152 + a.toNat * 65536 + b.toNat * 2048 + w.toNat * 32)
  | .amminn d a b w => BitVec.ofNat 32 (3825205254 + d.toNat * 2097152 + a.toNat * 65536 + b.toNat * 2048 + w.toNat * 32)
  | .ammaxn d a b w => BitVec.ofNat 32 (3825205255 + d.toNat * 2097152 + a.toNat * 65536 + b.toNat * 2048 + w.toNat * 32)
  | .amswp d a b w => BitVec.ofNat 32 (3825205256 + d.toNat * 2097152 + a.toNat * 65536 + b.toNat * 2048 + w.toNat * 32)
  | .amcas d a b w => BitVec.ofNat 32 (3825205257 + d.toNat * 2097152 + a.toNat * 65536 + b.toNat * 2048 + w.toNat * 32)
  | .amfadd d a b => BitVec.ofNat 32 (3825205258 + d.toNat * 2097152 + a.toNat * 65536 + b.toNat * 2048)
  | .amdadd d a b => BitVec.ofNat 32 (3825205259 + d.toNat * 2097152 + a.toNat * 65536 + b.toNat * 2048)
  | .lock d a b => BitVec.ofNat 32 (3892314112 + d.toNat * 2097152 + a.toNat * 65536 + b.toNat * 2048)
  | .unlock a => BitVec.ofNat 32 (3892314113 + a.toNat * 65536)
  | .lktry d a => BitVec.ofNat 32 (3892314114 + d.toNat * 2097152 + a.toNat * 65536)
  | .lkq d a => BitVec.ofNat 32 (3892314115 + d.toNat * 2097152 + a.toNat * 65536)
  | .wait l s c m g => BitVec.ofNat 32 (3959422976 + l.toNat * 4194304 + s.toNat * 262144 + c.toNat * 16384 + m.toNat * 1024 + g.toNat * 64)
  | .send a b => BitVec.ofNat 32 (4026531840 + a.toNat * 65536 + b.toNat * 2048)
  | .sendn d a b => BitVec.ofNat 32 (4026531841 + d.toNat * 2097152 + a.toNat * 65536 + b.toNat * 2048)
  | .callat d a b => BitVec.ofNat 32 (4026531842 + d.toNat * 2097152 + a.toNat * 65536 + b.toNat * 2048)
  | .rwi a b => BitVec.ofNat 32 (4026531843 + a.toNat * 65536 + b.toNat * 2048)
  | .arm d a b => BitVec.ofNat 32 (4026531844 + d.toNat * 2097152 + a.toNat * 65536 + b.toNat * 2048)
  | .disarm a => BitVec.ofNat 32 (4026531845 + a.toNat * 65536)
  | .watch d a b => BitVec.ofNat 32 (4026531846 + d.toNat * 2097152 + a.toNat * 65536 + b.toNat * 2048)
  | .rewatch d a b => BitVec.ofNat 32 (4026531847 + d.toNat * 2097152 + a.toNat * 65536 + b.toNat * 2048)
  | .apin d a b => BitVec.ofNat 32 (4026531848 + d.toNat * 2097152 + a.toNat * 65536 + b.toNat * 2048)
  | .aunpin a => BitVec.ofNat 32 (4026531849 + a.toNat * 65536)
  | .hmsg a b => BitVec.ofNat 32 (4026531850 + a.toNat * 65536 + b.toNat * 2048)
  | .commit d a b => BitVec.ofNat 32 (4093640704 + d.toNat * 2097152 + a.toNat * 65536 + b.toNat * 2048)
  | .seal d => BitVec.ofNat 32 (4093640705 + d.toNat * 2097152)
  | .claimq d a => BitVec.ofNat 32 (4093640706 + d.toNat * 2097152 + a.toNat * 65536)
  | .rpin d a b => BitVec.ofNat 32 (4093640707 + d.toNat * 2097152 + a.toNat * 65536 + b.toNat * 2048)
  | .runpin a => BitVec.ofNat 32 (4093640708 + a.toNat * 65536)
  | .wkq d a b => BitVec.ofNat 32 (4093640709 + d.toNat * 2097152 + a.toNat * 65536 + b.toNat * 2048)
  | .wkcan d a b => BitVec.ofNat 32 (4093640710 + d.toNat * 2097152 + a.toNat * 65536 + b.toNat * 2048)
  | .done => BitVec.ofNat 32 (4093640711)
  | .trap c => BitVec.ofNat 32 (4160749568 + c.toNat * 32)
  | .eret => BitVec.ofNat 32 (4160749569)
  | .idle => BitVec.ofNat 32 (4160749570)
  | .brk c => BitVec.ofNat 32 (4160749571 + c.toNat * 32)
  | .tlbinv a b => BitVec.ofNat 32 (4160749572 + a.toNat * 65536 + b.toNat * 2048)
  | .ctxsv a => BitVec.ofNat 32 (4160749573 + a.toNat * 65536)
  | .ctxld a => BitVec.ofNat 32 (4160749574 + a.toNat * 65536)
  | .fltack a => BitVec.ofNat 32 (4160749575 + a.toNat * 65536)
  | .yield => BitVec.ofNat 32 (4160749576)
  | .fmt a b r s => BitVec.ofNat 32 (4227858432 + a.toNat * 4194304 + b.toNat * 262144 + r.toNat * 65536 + s.toNat * 16384)
  | .receiverFault _ _ => 0
  | .upcall _ => 0
  | .notice _ _ _ => 0
  | .fback _ _ => 0
  | .faultRetry _ => 0
  | .halt _ _ _ => 0
  | .haltAll _ _ => 0
  | .resume _ _ _ => 0
  | .tlbcmd _ _ => 0
  | .inval _ _ _ _ _ => 0
  | .cmapswp _ _ => 0
  | .swapTransferDone _ => 0
  | .srsplit _ _ => 0
  | .splitEffect _ => 0
  | .tailw _ _ _ => 0
  | .cheadw _ _ _ => 0
  | .qtail _ _ => 0
  | .qchead _ _ => 0
  | .qctl _ _ => 0
  | .victl _ _ => 0
  | .keyInstall _ => 0
  | .teardownComplete _ => 0
  | .qLaunch _ => 0
  | .qGraph _ => 0
  | .qCancel _ => 0
  | .hmsgEntry _ => 0
  | .qfence _ => 0
  | .entryUnreadable _ => 0
  | .completionRecord _ => 0
  | .cwrite _ => 0
  | .hmsgDelivery _ => 0
  | .hmsgRetry _ => 0
  | .handlerMessage _ => 0
  | .placementDecision _ => 0
  | .blockSteal _ => 0
  | .dispatchReport _ _ _ _ => 0
  | .descriptorRead _ => 0
  | .pinRequest _ => 0
  | .pinReply _ _ _ => 0
  | .pinRetry _ => 0
  | .gangDrain _ _ => 0
  | .gangReserve _ _ => 0
  | .hedgeSample => 0
  | .budgetCheck _ => 0
  | .backupRequest _ => 0
  | .hedgeRequestTimeout _ => 0
  | .budgetRefill => 0
  | .translate _ => 0
  | .loadRequest _ => 0
  | .loadReply _ _ _ _ => 0
  | .storeRequest _ => 0
  | .storeAck _ _ => 0
  | .leaseExpiry _ _ _ => 0
  | .writeBack _ => 0
  | .flush _ _ _ _ _ => 0
  | .flushAck _ _ _ => 0
  | .handleUpdate _ => 0
  | .copyBegin _ => 0
  | .copyConditionalWrite _ _ => 0
  | .copyComplete _ _ => 0
  | .waddrRetry _ => 0
  | .tileOpComplete _ _ => 0
  | .segmentComplete _ => 0
  | .scopeMiss _ => 0
  | .atomicRequest _ => 0
  | .atomicReply _ _ _ _ => 0
  | .atomicResend _ => 0
  | .lockRequest _ => 0
  | .lkqRequest _ => 0
  | .lockTableRetry _ => 0
  | .enqueued _ => 0
  | .lkLink _ _ _ => 0
  | .grant _ _ _ _ => 0
  | .handoff _ _ _ => 0
  | .lkRelease _ _ _ => 0
  | .waitlink _ _ => 0
  | .lkBreak _ _ => 0
  | .breakAck _ _ _ _ => 0
  | .holdDeadline _ _ => 0
  | .lockDeadline _ _ => 0
  | .skipTimer _ _ => 0
  | .probe _ _ _ _ => 0
  | .probeResult _ _ _ _ => 0
  | .deadlockReport _ _ _ _ _ => 0
  | .messageArrival _ => 0
  | .reoffer _ => 0
  | .withdraw _ => 0
  | .messageAnswer _ _ => 0
  | .handlerRunStart _ => 0
  | .hbudget _ => 0
  | .taskArrive _ => 0
  | .taskStart _ => 0
  | .callatReply _ _ _ _ => 0
  | .rwiArrival _ => 0
  | .watchRequest _ => 0
  | .watchRetry _ => 0
  | .freeze _ => 0
  | .thaw _ => 0
  | .evict _ => 0
  | .restore _ => 0
  | .actorResume _ => 0
  | .spillReplay _ _ => 0
  | .idleTimeout _ _ => 0
  | .yieldExpiry _ _ => 0
  | .gtwaitExpiry _ _ => 0
  | .claimRequest _ => 0
  | .claimAnswer _ _ => 0
  | .claimRetry _ => 0
  | .winNotice _ => 0
  | .commitBusyRetry _ => 0
  | .streamLine _ _ => 0
  | .publish _ => 0
  | .groupClaim _ => 0
  | .claimRelease _ => 0
  | .cancelCopy _ _ _ => 0
  | .rowpwr _ _ => 0
  | .corepwr _ _ => 0
  | .voltageStep _ => 0
  | .clockHop _ => 0
  | .droop _ => 0
  | .rampStep => 0
  | .controlInterval => 0
  | .fabpwrStagger _ => 0
  | .fabpwrSlow _ => 0
  | .stagger _ _ => 0
  | .slow _ _ => 0
  | .supplyEmergency => 0
  | .emerg _ => 0
  | .tantalumBoot _ _ => 0
  | .portTraining _ _ => 0
  | .nak _ => 0
  | .linkAck _ _ => 0
  | .permitReturn _ _ _ _ _ => 0
  | .portDown _ => 0
  | .keyRollover _ => 0
  | .keydone _ => 0
  | .keyack _ => 0
  | .getVersion _ => 0
  | .getCapabilities _ => 0
  | .negotiateAlgorithms _ => 0
  | .getDigests _ => 0
  | .getCertificate _ => 0
  | .challenge _ => 0
  | .getMeasurements _ _ => 0
  | .keyExchange _ => 0
  | .finish _ => 0
  | .endSession _ => 0
  | .fatalError _ _ => 0
  | .registerWrite _ _ => 0
  | .ill _ => 0
  | .fetchFault _ _ => 0
  | .badop _ => 0
  | .mcheck _ => 0
  | .voltageRecovered _ => 0
  | .emergencyCleared => 0

/-- Major 0x01. -/
def decMajor01 (w : Nat) : Option Instr :=
  match w % 2048 with
  | 0 => some (.add (fld w 21 5) (fld w 16 5) (fld w 11 5))
  | 1 => some (.sub (fld w 21 5) (fld w 16 5) (fld w 11 5))
  | 2 => some (.and (fld w 21 5) (fld w 16 5) (fld w 11 5))
  | 3 => some (.andn (fld w 21 5) (fld w 16 5) (fld w 11 5))
  | 4 => some (.or (fld w 21 5) (fld w 16 5) (fld w 11 5))
  | 5 => some (.xor (fld w 21 5) (fld w 16 5) (fld w 11 5))
  | 6 => some (.sll (fld w 21 5) (fld w 16 5) (fld w 11 5))
  | 7 => some (.srl (fld w 21 5) (fld w 16 5) (fld w 11 5))
  | 8 => some (.sra (fld w 21 5) (fld w 16 5) (fld w 11 5))
  | 9 => some (.mul (fld w 21 5) (fld w 16 5) (fld w 11 5))
  | 10 => some (.mulh (fld w 21 5) (fld w 16 5) (fld w 11 5))
  | 11 => some (.mulhn (fld w 21 5) (fld w 16 5) (fld w 11 5))
  | 12 => some (.div (fld w 21 5) (fld w 16 5) (fld w 11 5))
  | 13 => some (.divn (fld w 21 5) (fld w 16 5) (fld w 11 5))
  | 14 => some (.rem (fld w 21 5) (fld w 16 5) (fld w 11 5))
  | 15 => some (.remn (fld w 21 5) (fld w 16 5) (fld w 11 5))
  | 16 => some (.min (fld w 21 5) (fld w 16 5) (fld w 11 5))
  | 17 => some (.max (fld w 21 5) (fld w 16 5) (fld w 11 5))
  | 18 => some (.minn (fld w 21 5) (fld w 16 5) (fld w 11 5))
  | 19 => some (.maxn (fld w 21 5) (fld w 16 5) (fld w 11 5))
  | 20 => some (.slt (fld w 21 5) (fld w 16 5) (fld w 11 5))
  | 21 => some (.sltn (fld w 21 5) (fld w 16 5) (fld w 11 5))
  | 22 => some (.seq (fld w 21 5) (fld w 16 5) (fld w 11 5))
  | 23 => some (.clz (fld w 21 5) (fld w 16 5))
  | 24 => some (.ctz (fld w 21 5) (fld w 16 5))
  | 25 => some (.popc (fld w 21 5) (fld w 16 5))
  | 26 => some (.bext (fld w 21 5) (fld w 16 5) (fld w 11 5))
  | 27 => some (.bins (fld w 21 5) (fld w 16 5) (fld w 11 5))
  | _ => none

/-- Major 0x02. -/
def decMajor02 (w : Nat) : Option Instr :=
  some (.addi (fld w 21 5) (fld w 16 5) (fld w 0 16))

/-- Major 0x03. -/
def decMajor03 (w : Nat) : Option Instr :=
  some (.andi (fld w 21 5) (fld w 16 5) (fld w 0 16))

/-- Major 0x04. -/
def decMajor04 (w : Nat) : Option Instr :=
  some (.ori (fld w 21 5) (fld w 16 5) (fld w 0 16))

/-- Major 0x05. -/
def decMajor05 (w : Nat) : Option Instr :=
  some (.xori (fld w 21 5) (fld w 16 5) (fld w 0 16))

/-- Major 0x06. -/
def decMajor06 (w : Nat) : Option Instr :=
  some (.slti (fld w 21 5) (fld w 16 5) (fld w 0 16))

/-- Major 0x07. -/
def decMajor07 (w : Nat) : Option Instr :=
  some (.sltin (fld w 21 5) (fld w 16 5) (fld w 0 16))

/-- Major 0x08. -/
def decMajor08 (w : Nat) : Option Instr :=
  some (.slli (fld w 21 5) (fld w 16 5) (fld w 0 6))

/-- Major 0x09. -/
def decMajor09 (w : Nat) : Option Instr :=
  some (.srli (fld w 21 5) (fld w 16 5) (fld w 0 6))

/-- Major 0x0A. -/
def decMajor0A (w : Nat) : Option Instr :=
  some (.srai (fld w 21 5) (fld w 16 5) (fld w 0 6))

/-- Major 0x0B. -/
def decMajor0B (w : Nat) : Option Instr :=
  some (.lui (fld w 21 5) (fld w 0 16))

/-- Major 0x0C. -/
def decMajor0C (w : Nat) : Option Instr :=
  some (.apc (fld w 21 5) (fld w 0 16))

/-- Major 0x10. -/
def decMajor10 (w : Nat) : Option Instr :=
  some (.jal (fld w 21 5) (fld w 0 21))

/-- Major 0x11. -/
def decMajor11 (w : Nat) : Option Instr :=
  some (.jalr (fld w 21 5) (fld w 16 5) (fld w 0 16))

/-- Major 0x12. -/
def decMajor12 (w : Nat) : Option Instr :=
  some (.beq (fld w 21 5) (fld w 16 5) (fld w 0 16))

/-- Major 0x13. -/
def decMajor13 (w : Nat) : Option Instr :=
  some (.bne (fld w 21 5) (fld w 16 5) (fld w 0 16))

/-- Major 0x14. -/
def decMajor14 (w : Nat) : Option Instr :=
  some (.blt (fld w 21 5) (fld w 16 5) (fld w 0 16))

/-- Major 0x15. -/
def decMajor15 (w : Nat) : Option Instr :=
  some (.bge (fld w 21 5) (fld w 16 5) (fld w 0 16))

/-- Major 0x16. -/
def decMajor16 (w : Nat) : Option Instr :=
  some (.bltn (fld w 21 5) (fld w 16 5) (fld w 0 16))

/-- Major 0x17. -/
def decMajor17 (w : Nat) : Option Instr :=
  some (.bgen (fld w 21 5) (fld w 16 5) (fld w 0 16))

/-- Major 0x18. -/
def decMajor18 (w : Nat) : Option Instr :=
  match w % 8 with
  | 0 => some (.lb (fld w 21 5) (fld w 16 5) (fld w 3 13))
  | 1 => some (.lbn (fld w 21 5) (fld w 16 5) (fld w 3 13))
  | 2 => some (.lh (fld w 21 5) (fld w 16 5) (fld w 3 13))
  | 3 => some (.lhn (fld w 21 5) (fld w 16 5) (fld w 3 13))
  | 4 => some (.lw (fld w 21 5) (fld w 16 5) (fld w 3 13))
  | 5 => some (.lwn (fld w 21 5) (fld w 16 5) (fld w 3 13))
  | 6 => some (.ld (fld w 21 5) (fld w 16 5) (fld w 3 13))
  | _ => none

/-- Major 0x19. -/
def decMajor19 (w : Nat) : Option Instr :=
  match w % 8 with
  | 0 => some (.sb (fld w 21 5) (fld w 16 5) (fld w 3 13))
  | 1 => some (.sh (fld w 21 5) (fld w 16 5) (fld w 3 13))
  | 2 => some (.sw (fld w 21 5) (fld w 16 5) (fld w 3 13))
  | 3 => some (.sd (fld w 21 5) (fld w 16 5) (fld w 3 13))
  | _ => none

/-- Major 0x1A. -/
def decMajor1A (w : Nat) : Option Instr :=
  match w % 2048 with
  | 0 => some (.stv (fld w 21 5) (fld w 16 5) (fld w 11 5))
  | 1 => some (.pref (fld w 16 5))
  | 2 => some (.l1wb (fld w 16 5))
  | 3 => some (.l1inv (fld w 16 5))
  | 4 => some (.hnew (fld w 21 5) (fld w 16 5) (fld w 11 5))
  | 5 => some (.hgive (fld w 21 5) (fld w 16 5) (fld w 11 5))
  | 6 => some (.hrev (fld w 16 5))
  | 7 => some (.hchk (fld w 21 5) (fld w 16 5))
  | _ => none

/-- Major 0x20. -/
def decMajor20 (w : Nat) : Option Instr :=
  match w % 16 with
  | 0 => some (.fadd (fld w 21 5) (fld w 16 5) (fld w 11 5) (fld w 4 1))
  | 1 => some (.fsub (fld w 21 5) (fld w 16 5) (fld w 11 5) (fld w 4 1))
  | 2 => some (.fmul (fld w 21 5) (fld w 16 5) (fld w 11 5) (fld w 4 1))
  | 3 => some (.ffma (fld w 21 5) (fld w 16 5) (fld w 11 5) (fld w 4 1))
  | 4 => some (.ffms (fld w 21 5) (fld w 16 5) (fld w 11 5) (fld w 4 1))
  | 5 => some (.fdiv (fld w 21 5) (fld w 16 5) (fld w 11 5) (fld w 4 1))
  | 6 => some (.fsqrt (fld w 21 5) (fld w 16 5) (fld w 4 1))
  | 7 => some (.fmin (fld w 21 5) (fld w 16 5) (fld w 11 5) (fld w 4 1))
  | 8 => some (.fmax (fld w 21 5) (fld w 16 5) (fld w 11 5) (fld w 4 1))
  | 9 => some (.fceq (fld w 21 5) (fld w 16 5) (fld w 11 5) (fld w 4 1))
  | 10 => some (.fclt (fld w 21 5) (fld w 16 5) (fld w 11 5) (fld w 4 1))
  | 11 => some (.fcle (fld w 21 5) (fld w 16 5) (fld w 11 5) (fld w 4 1))
  | 12 => some (.fcvt (fld w 21 5) (fld w 16 5) (fld w 11 4) (fld w 4 4))
  | 13 => some (.fclass (fld w 21 5) (fld w 16 5) (fld w 4 1))
  | _ => none

/-- Major 0x28. -/
def decMajor28 (w : Nat) : Option Instr :=
  match w % 16 with
  | 0 => some (.vadd (fld w 21 5) (fld w 16 5) (fld w 11 5) (fld w 8 3) (fld w 4 4))
  | 1 => some (.vsub (fld w 21 5) (fld w 16 5) (fld w 11 5) (fld w 8 3) (fld w 4 4))
  | 2 => some (.vmul (fld w 21 5) (fld w 16 5) (fld w 11 5) (fld w 8 3) (fld w 4 4))
  | 3 => some (.vfma (fld w 21 5) (fld w 16 5) (fld w 11 5) (fld w 8 3) (fld w 4 4))
  | 4 => some (.vfms (fld w 21 5) (fld w 16 5) (fld w 11 5) (fld w 8 3) (fld w 4 4))
  | 5 => some (.vmin (fld w 21 5) (fld w 16 5) (fld w 11 5) (fld w 8 3) (fld w 4 4))
  | 6 => some (.vmax (fld w 21 5) (fld w 16 5) (fld w 11 5) (fld w 8 3) (fld w 4 4))
  | 7 => some (.vabs (fld w 21 5) (fld w 16 5) (fld w 8 3) (fld w 4 4))
  | 8 => some (.vneg (fld w 21 5) (fld w 16 5) (fld w 8 3) (fld w 4 4))
  | 9 => some (.vand (fld w 21 5) (fld w 16 5) (fld w 11 5) (fld w 8 3) (fld w 4 4))
  | 10 => some (.vor (fld w 21 5) (fld w 16 5) (fld w 11 5) (fld w 8 3) (fld w 4 4))
  | 11 => some (.vxor (fld w 21 5) (fld w 16 5) (fld w 11 5) (fld w 8 3) (fld w 4 4))
  | 12 => some (.vsll (fld w 21 5) (fld w 16 5) (fld w 11 5) (fld w 8 3) (fld w 4 4))
  | 13 => some (.vsrl (fld w 21 5) (fld w 16 5) (fld w 11 5) (fld w 8 3) (fld w 4 4))
  | 14 => some (.vsra (fld w 21 5) (fld w 16 5) (fld w 11 5) (fld w 8 3) (fld w 4 4))
  | _ => none

/-- Major 0x29. -/
def decMajor29 (w : Nat) : Option Instr :=
  match w % 16 with
  | 0 => some (.vcmpeq (fld w 21 5) (fld w 16 5) (fld w 11 5) (fld w 8 3) (fld w 4 4))
  | 1 => some (.vcmplt (fld w 21 5) (fld w 16 5) (fld w 11 5) (fld w 8 3) (fld w 4 4))
  | 2 => some (.vcmple (fld w 21 5) (fld w 16 5) (fld w 11 5) (fld w 8 3) (fld w 4 4))
  | 3 => some (.vsel (fld w 21 5) (fld w 16 5) (fld w 11 5) (fld w 8 3) (fld w 4 4))
  | 4 => some (.vredadd (fld w 21 5) (fld w 16 5) (fld w 8 3) (fld w 4 4))
  | 5 => some (.vredmax (fld w 21 5) (fld w 16 5) (fld w 8 3) (fld w 4 4))
  | 6 => some (.vredmin (fld w 21 5) (fld w 16 5) (fld w 8 3) (fld w 4 4))
  | 7 => some (.vamax (fld w 21 5) (fld w 16 5) (fld w 8 3) (fld w 4 4))
  | _ => none

/-- Major 0x2A. -/
def decMajor2A (w : Nat) : Option Instr :=
  match w % 16 with
  | 0 => some (.vcvt (fld w 21 5) (fld w 16 5) (fld w 11 4) (fld w 8 3) (fld w 4 4))
  | 1 => some (.vqnt (fld w 21 5) (fld w 16 5) (fld w 11 5) (fld w 8 3) (fld w 4 4))
  | 2 => some (.vdqnt (fld w 21 5) (fld w 16 5) (fld w 11 5) (fld w 8 3) (fld w 4 4))
  | 3 => some (.vexp2 (fld w 21 5) (fld w 16 5) (fld w 8 3) (fld w 4 4))
  | 4 => some (.vlog2 (fld w 21 5) (fld w 16 5) (fld w 8 3) (fld w 4 4))
  | 5 => some (.vrcp (fld w 21 5) (fld w 16 5) (fld w 8 3) (fld w 4 4))
  | 6 => some (.vrsq (fld w 21 5) (fld w 16 5) (fld w 8 3) (fld w 4 4))
  | _ => none

/-- Major 0x2B. -/
def decMajor2B (w : Nat) : Option Instr :=
  match w % 16 with
  | 0 => some (.vperm (fld w 21 5) (fld w 16 5) (fld w 11 5) (fld w 8 3) (fld w 4 4))
  | 1 => some (.vshuf (fld w 21 5) (fld w 16 5) (fld w 11 5) (fld w 8 3) (fld w 4 4))
  | 2 => some (.vbcast (fld w 21 5) (fld w 16 5) (fld w 8 3) (fld w 4 4))
  | 3 => some (.vext (fld w 21 5) (fld w 16 5) (fld w 11 5) (fld w 4 4))
  | 4 => some (.vins (fld w 21 5) (fld w 16 5) (fld w 11 5) (fld w 4 4))
  | _ => none

/-- Major 0x2C. -/
def decMajor2C (w : Nat) : Option Instr :=
  match w % 16 with
  | 0 => some (.vld (fld w 21 5) (fld w 16 5) (fld w 8 3) (fld w 4 4))
  | 1 => some (.vst (fld w 21 5) (fld w 16 5) (fld w 8 3) (fld w 4 4))
  | 2 => some (.vlds (fld w 21 5) (fld w 16 5) (fld w 11 5) (fld w 8 3) (fld w 4 4))
  | 3 => some (.vsts (fld w 21 5) (fld w 16 5) (fld w 11 5) (fld w 8 3) (fld w 4 4))
  | 4 => some (.vgth (fld w 21 5) (fld w 16 5) (fld w 11 5) (fld w 8 3) (fld w 4 4))
  | 5 => some (.vsct (fld w 21 5) (fld w 16 5) (fld w 11 5) (fld w 8 3) (fld w 4 4))
  | _ => none

/-- Major 0x2D. -/
def decMajor2D (w : Nat) : Option Instr :=
  match w % 16 with
  | 0 => some (.kand (fld w 21 5) (fld w 16 5) (fld w 11 5))
  | 1 => some (.kor (fld w 21 5) (fld w 16 5) (fld w 11 5))
  | 2 => some (.knot (fld w 21 5) (fld w 16 5))
  | 3 =>
    match w / 16 % 16 with
    | 0 => some (.kmov (fld w 21 5) (fld w 16 5))
    | 1 => some (.kmovFromX (fld w 21 5) (fld w 16 5))
    | 2 => some (.kmovToX (fld w 21 5) (fld w 16 5))
    | _ => none
  | _ => none

/-- Major 0x30. -/
def decMajor30 (w : Nat) : Option Instr :=
  match w % 32 with
  | 0 => some (.macq (fld w 23 3))
  | 1 => some (.mrel (fld w 23 3))
  | 2 => some (.mld (fld w 23 3) (fld w 12 5))
  | 3 => some (.mst (fld w 23 3) (fld w 12 5))
  | 4 => some (.mzero (fld w 23 3))
  | 5 => some (.mma (fld w 23 3) (fld w 20 3) (fld w 17 3))
  | 6 => some (.mmas (fld w 23 3) (fld w 20 3) (fld w 17 3) (fld w 9 3))
  | 7 => some (.madd (fld w 23 3) (fld w 20 3) (fld w 17 3))
  | 8 => some (.mscl (fld w 23 3) (fld w 20 3) (fld w 12 5))
  | 9 => some (.mcvt (fld w 23 3) (fld w 20 3))
  | 10 => some (.mtrn (fld w 23 3) (fld w 20 3))
  | 11 => some (.mgeo (fld w 12 5) (fld w 9 3))
  | _ => none

/-- Major 0x34. -/
def decMajor34 (w : Nat) : Option Instr :=
  match w / 8388608 % 8, w / 65536 % 128 with
  | 0, 0 => some (.cpstat (fld w 11 5) (fld w 1 5))
  | 0, 1 => some (.cpkill (fld w 11 5))
  | 1, 0 => some (.mkfull (fld w 11 5) (fld w 6 5))
  | 1, 1 => some (.mkempty (fld w 11 5) (fld w 6 5))
  | 1, 2 => some (.festat (fld w 11 5) (fld w 1 5))
  | 1, 3 => some (.waddr (fld w 11 5) (fld w 6 5))
  | 2, _ => some (.loop (fld w 16 2) (fld w 11 5) (fld w 6 5))
  | _, _ => none

/-- Major 0x36. -/
def decMajor36 (w : Nat) : Option Instr :=
  some (.mtc (fld w 16 5) (fld w 0 12))

/-- Major 0x37. -/
def decMajor37 (w : Nat) : Option Instr :=
  if w % 65536 = 0x02A then some (.cpgo (fld w 21 5)) else some (.mfc (fld w 21 5) (fld w 0 12))

/-- Major 0x38. -/
def decMajor38 (w : Nat) : Option Instr :=
  match w % 32 with
  | 0 => some (.fence (fld w 7 4) (fld w 5 2))
  | 1 => some (.ldacq (fld w 21 5) (fld w 16 5) (fld w 7 4))
  | 2 => some (.strel (fld w 16 5) (fld w 11 5) (fld w 7 4))
  | 3 => some (.gtwait (fld w 16 5))
  | _ => none

/-- Major 0x39. -/
def decMajor39 (w : Nat) : Option Instr :=
  match w % 32 with
  | 0 => some (.amadd (fld w 21 5) (fld w 16 5) (fld w 11 5) (fld w 5 1))
  | 1 => some (.amand (fld w 21 5) (fld w 16 5) (fld w 11 5) (fld w 5 1))
  | 2 => some (.amor (fld w 21 5) (fld w 16 5) (fld w 11 5) (fld w 5 1))
  | 3 => some (.amxor (fld w 21 5) (fld w 16 5) (fld w 11 5) (fld w 5 1))
  | 4 => some (.ammin (fld w 21 5) (fld w 16 5) (fld w 11 5) (fld w 5 1))
  | 5 => some (.ammax (fld w 21 5) (fld w 16 5) (fld w 11 5) (fld w 5 1))
  | 6 => some (.amminn (fld w 21 5) (fld w 16 5) (fld w 11 5) (fld w 5 1))
  | 7 => some (.ammaxn (fld w 21 5) (fld w 16 5) (fld w 11 5) (fld w 5 1))
  | 8 => some (.amswp (fld w 21 5) (fld w 16 5) (fld w 11 5) (fld w 5 1))
  | 9 => some (.amcas (fld w 21 5) (fld w 16 5) (fld w 11 5) (fld w 5 1))
  | 10 => some (.amfadd (fld w 21 5) (fld w 16 5) (fld w 11 5))
  | 11 => some (.amdadd (fld w 21 5) (fld w 16 5) (fld w 11 5))
  | _ => none

/-- Major 0x3A. -/
def decMajor3A (w : Nat) : Option Instr :=
  match w % 32 with
  | 0 => some (.lock (fld w 21 5) (fld w 16 5) (fld w 11 5))
  | 1 => some (.unlock (fld w 16 5))
  | 2 => some (.lktry (fld w 21 5) (fld w 16 5))
  | 3 => some (.lkq (fld w 21 5) (fld w 16 5))
  | _ => none

/-- Major 0x3B. -/
def decMajor3B (w : Nat) : Option Instr :=
  some (.wait (fld w 22 4) (fld w 18 4) (fld w 14 4) (fld w 10 4) (fld w 6 4))

/-- Major 0x3C. -/
def decMajor3C (w : Nat) : Option Instr :=
  match w % 32 with
  | 0 => some (.send (fld w 16 5) (fld w 11 5))
  | 1 => some (.sendn (fld w 21 5) (fld w 16 5) (fld w 11 5))
  | 2 => some (.callat (fld w 21 5) (fld w 16 5) (fld w 11 5))
  | 3 => some (.rwi (fld w 16 5) (fld w 11 5))
  | 4 => some (.arm (fld w 21 5) (fld w 16 5) (fld w 11 5))
  | 5 => some (.disarm (fld w 16 5))
  | 6 => some (.watch (fld w 21 5) (fld w 16 5) (fld w 11 5))
  | 7 => some (.rewatch (fld w 21 5) (fld w 16 5) (fld w 11 5))
  | 8 => some (.apin (fld w 21 5) (fld w 16 5) (fld w 11 5))
  | 9 => some (.aunpin (fld w 16 5))
  | 10 => some (.hmsg (fld w 16 5) (fld w 11 5))
  | _ => none

/-- Major 0x3D. -/
def decMajor3D (w : Nat) : Option Instr :=
  match w % 32 with
  | 0 => some (.commit (fld w 21 5) (fld w 16 5) (fld w 11 5))
  | 1 => some (.seal (fld w 21 5))
  | 2 => some (.claimq (fld w 21 5) (fld w 16 5))
  | 3 => some (.rpin (fld w 21 5) (fld w 16 5) (fld w 11 5))
  | 4 => some (.runpin (fld w 16 5))
  | 5 => some (.wkq (fld w 21 5) (fld w 16 5) (fld w 11 5))
  | 6 => some (.wkcan (fld w 21 5) (fld w 16 5) (fld w 11 5))
  | 7 => some .done
  | _ => none

/-- Major 0x3E. -/
def decMajor3E (w : Nat) : Option Instr :=
  match w % 32 with
  | 0 => some (.trap (fld w 5 6))
  | 1 => some .eret
  | 2 => some .idle
  | 3 => some (.brk (fld w 5 6))
  | 4 => some (.tlbinv (fld w 16 5) (fld w 11 5))
  | 5 => some (.ctxsv (fld w 16 5))
  | 6 => some (.ctxld (fld w 16 5))
  | 7 => some (.fltack (fld w 16 5))
  | 8 => some .yield
  | _ => none

/-- Major 0x3F. -/
def decMajor3F (w : Nat) : Option Instr :=
  some (.fmt (fld w 22 4) (fld w 18 4) (fld w 16 2) (fld w 14 2))

/-- The instruction whose major opcode and selector bits `w` holds, its other bits not checked. -/
def decRaw (w : Nat) : Option Instr :=
  match w / 67108864 with
  | 1 => decMajor01 w
  | 2 => decMajor02 w
  | 3 => decMajor03 w
  | 4 => decMajor04 w
  | 5 => decMajor05 w
  | 6 => decMajor06 w
  | 7 => decMajor07 w
  | 8 => decMajor08 w
  | 9 => decMajor09 w
  | 10 => decMajor0A w
  | 11 => decMajor0B w
  | 12 => decMajor0C w
  | 16 => decMajor10 w
  | 17 => decMajor11 w
  | 18 => decMajor12 w
  | 19 => decMajor13 w
  | 20 => decMajor14 w
  | 21 => decMajor15 w
  | 22 => decMajor16 w
  | 23 => decMajor17 w
  | 24 => decMajor18 w
  | 25 => decMajor19 w
  | 26 => decMajor1A w
  | 32 => decMajor20 w
  | 40 => decMajor28 w
  | 41 => decMajor29 w
  | 42 => decMajor2A w
  | 43 => decMajor2B w
  | 44 => decMajor2C w
  | 45 => decMajor2D w
  | 48 => decMajor30 w
  | 52 => decMajor34 w
  | 54 => decMajor36 w
  | 55 => decMajor37 w
  | 56 => decMajor38 w
  | 57 => decMajor39 w
  | 58 => decMajor3A w
  | 59 => decMajor3B w
  | 60 => decMajor3C w
  | 61 => decMajor3D w
  | 62 => decMajor3E w
  | 63 => decMajor3F w
  | _ => none

/-- Why decoding refuses a word: no instruction has its opcode, or a field holds a value, or a reserved bit is set, that its
instruction does not allow. Either way it traps ILL (R111 steps 1 to 4). -/
inductive Reject where
  | noOpcode
  | badField
  deriving DecidableEq, Repr

/-- The instruction that a word stands for, or why there is none. -/
def decodeWord (w : Word) : Except Reject Instr :=
  match decRaw w.toNat with
  | none => .error .noOpcode
  | some i => if i.wf && encode i == w then .ok i else .error .badField

/-- The instruction that a word stands for; none where it traps ILL at decode (R111 steps 1 to 4). -/
def decode (w : Word) : Option Instr :=
  match decodeWord w with
  | .ok i => some i
  | .error _ => none

/-- The instruction in the low bits of `w`, as the opcode table numbers them: one little-endian word (R104). -/
def decodeTableWord (_nbits w : Nat) : Option Instr := decode (BitVec.ofNat 32 w)

/-- The bytes of an instruction word in memory, the byte at the lowest address first (R104). -/
def wordBytes (w : Word) : List Byte :=
  [BitVec.ofNat 8 w.toNat, BitVec.ofNat 8 (w.toNat / 256), BitVec.ofNat 8 (w.toNat / 65536), BitVec.ofNat 8 (w.toNat / 16777216)]

/-- The word of four bytes. -/
def bytesWord (b : List Byte) : Word :=
  BitVec.ofNat 32 (b.foldr (fun x acc => x.toNat + 256 * acc) 0)

/-- The instructions that take a prefix (R123). -/
def Instr.takesPrefix : Instr → Bool
  | .mma .. | .mmas .. | .madd .. | .mscl .. | .mcvt .. | .vcvt .. | .vqnt .. | .vdqnt .. | .fcvt .. => true
  | _ => false

/-- The privileged instructions (R121). -/
def Instr.privileged : Instr → Bool
  | .eret | .tlbinv .. | .ctxsv .. | .ctxld .. => true
  | _ => false

end Sys2Proof
end

