-- ==== Sys2Proof/Machine/State.lean ====
section
/-! DEFINITION. The state of the Q40 as plain data: all the spec gives the machine (INVENTORY.md, State). Contexts,
cores, homes, dies, interfaces and queues are finite tables in which an unlisted key holds its reset record. -/
namespace Sys2Proof.Machine
open Sys2Proof

/-- A range of memory whose contents the spec calls undefined: first address, one past the last, generation (log 6). -/
structure Junk where
  lo : Nat
  hi : Nat
  gen : Nat
  deriving DecidableEq, Repr

/-- All memory: bytes that differ from 0, by address, and the ranges with undefined contents (log 2, 6). -/
structure Mem where
  cells : List Host.Cell := []
  junk : List Junk := []
  deriving DecidableEq, Repr

/-- A write that a step makes, applied to memory when the step ends. -/
inductive Wr where
  | bytes (a : Nat) (d : List Byte)
  | zero (a n : Nat)
  | junk (a n gen : Nat)
  deriving DecidableEq, Repr

/-- The states of a context (R79). -/
inductive CSt where
  | idle | ready | stall | halt
  deriving DecidableEq, Repr

/-- The kind of work of a context (R389). -/
inductive Kind where
  | unit | host | handler | task
  deriving DecidableEq, Repr

/-- The outstanding counter an operation is counted in (R149); `none` for an operation that is not counted. -/
inductive Ctr where
  | ld | st | cp | mx | msg | none
  deriving DecidableEq, Repr

/-- Where the value of an operation goes: nowhere, a scalar register with its size and extension, a vector or a tile register. -/
inductive Dst where
  | none
  | x (d n : Nat) (sx : Bool)
  | v (d : Nat)
  | m (d : Nat)
  deriving DecidableEq, Repr

/-- A part of an operation that is still out: serial number, offset in the destination and request. -/
structure Part where
  id : Nat
  off : Nat
  q : Req
  deriving DecidableEq, Repr

/-- A refused part: the part, its trap code and fault token (R171, R377), and whether the context has stopped for it. -/
structure RPart where
  p : Part
  code : Nat
  token : Nat
  told : Bool := false
  deriving DecidableEq, Repr

/-- A tile operation under way (R275). -/
inductive TileOp where
  | zero | add | scl | cvt | trn
  deriving DecidableEq, Repr

/-- The operands of a matrix operation as they stood at issue: registers, shapes, types and modes (R266, R276). -/
structure MArgs where
  op : TileOp := .zero
  d : Nat := 0
  a : Nat := 0
  b : Nat := 0
  s : Nat := 0
  td : Nat := 0
  ta : Nat := 0
  tb : Nat := 0
  rows : Nat := 0
  cols : Nat := 0
  kk : Nat := 0
  sc : BitVec 32 := 0
  rnd : Nat := 0
  sat : Bool := false
  deriving DecidableEq, Repr

/-- A macro-op in progress (R279 to R281): operands, next segment, segments, steps of the segment still to be granted, and the flags
of the segments performed since its issue. -/
structure MOp where
  args : MArgs
  seg : Nat
  ns : Nat
  left : Nat
  scale : Bool
  fmt : Option Word
  fl : BitVec 6 := 0
  deriving DecidableEq, Repr

/-- What an outstanding operation does beyond its parts: a tile operation with its cycles in the unit (R285), a macro-op under way, and
one that has retired, whose last segment is added into md at a time (R280). -/
inductive OpKind where
  | load | store | ldacq (scope : Nat) | strel | atomic | ask
  | copy (id : Nat)
  | tile (m : MArgs) (cycles : Nat)
  | mma
  | mmaEnd (o : MOp) (due : Nat)
  | mld | mst
  | msg (name : W64)
  deriving DecidableEq, Repr

/-- An outstanding operation of a context (R149, R150, R171); `hold`: an STREL that its release still holds (R310). -/
structure Op where
  id : Nat
  kind : OpKind
  ctr : Ctr
  dst : Dst := .none
  parts : List Part := []
  refused : List RPart := []
  vt : Nat := 0
  hold : Bool := false
  deriving DecidableEq, Repr

/-- What a context in STALL waits for (R79). -/
inductive WaitOn where
  | free
  | regs (xs vs ms : List Nat) (wm : List Nat)
  | ctrs (ld st cp mx msg : Nat)
  | full (lo hi : Nat)
  | time (t : Nat)
  | answer
  | copyRoom
  | msgRoom (name : W64)
  | amoRoom (home : Nat)
  | ghosts (n : Nat)
  | idle (until_ : Nat)
  | samePlace (va : W64) (n : Nat)
  | ldacq
  | notices (block : Nat) (n : Nat)
  | save (t : Nat)
  deriving DecidableEq, Repr

/-- The request an instruction is stalled on (R436, R460). -/
inductive PKind where
  | none | handle | line | festat | lock | watch | sendn | seal | commit | void | waddr | inval | save | load
  deriving DecidableEq, Repr

/-- The answer to it. -/
inductive PAns where
  | value (v : W64) (t : Nat)
  | refused (code : Nat) (addr : W64)
  deriving DecidableEq, Repr

/-- A stalled instruction's request: what it is, its serial number, how many answers are due, the latest time and the answer. -/
structure Pend where
  kind : PKind := .none
  id : Nat := 0
  left : Nat := 0
  t : Nat := 0
  ans : Option PAns := none
  deriving DecidableEq, Repr

/-- The stop shadow (R388). -/
structure Shadow where
  cause : W64 := 0
  epc : W64 := 0
  tval : W64 := 0
  ppriv : Bool := false
  pend : Bool := false
  pfx : W64 := 0
  deriving DecidableEq, Repr

/-- The ten copy registers (R191). -/
structure CpRegs where
  src : W64 := 0
  dst : W64 := 0
  stra : W64 := 0
  strb : W64 := 0
  shape : W64 := 0
  bound : W64 := 0
  ver : W64 := 0
  done : W64 := 0
  dev : W64 := 0
  mcast : W64 := 0
  deriving DecidableEq, Repr

/-- A held lock: line as named, its key, deadline logarithm, whether it is LOST, the waiter that follows (R325, R337); after
a restore, the context under which its home knows the entry. -/
structure Held where
  line : W64
  key : LKey
  eid : Nat
  hold : Nat
  lost : Bool := false
  next : Option Waiter := none
  owner : Option Nat := none
  deriving DecidableEq, Repr

/-- A waiting entry (R325, R329); `unsent`: its new request waits for the limit of R306. -/
structure WaitE where
  line : W64
  eid : Nat
  hold : Nat
  key : Option LKey := none
  deadline : Option Nat := none
  next : Option Waiter := none
  requeued : Bool := false
  unsent : Bool := false
  granted : Option Nat := none
  gdata : List Byte := []
  timedOut : Bool := false
  deriving DecidableEq, Repr

/-- A pin a copy holds: header home and address, and which buffer (R29, R448). -/
structure Pin where
  head : W64
  home : Nat
  pa : Nat
  buf : W64
  bufB : Bool
  rpin : Bool
  deriving DecidableEq, Repr

/-- A tile a committing copy publishes: header, source, expected version and what its grant carried (R437, R439). -/
structure CTile where
  head : W64
  src : W64
  expv : BitVec 32
  granted : Bool := false
  tlines : Nat := 0
  sh : W64 := 0
  sent : Nat := 0
  acked : Nat := 0
  vt : Nat := 0
  home : Nat := 0
  pa : Nat := 0
  won : Bool := false
  published : Bool := false
  deriving DecidableEq, Repr

/-- A commit in progress: the serial number of its claim, and its tiles, the primary first (R445). -/
structure Commit where
  id : Nat
  tiles : List CTile
  deriving DecidableEq, Repr

/-- The last copies of a context as CPSTAT sees them: id, state, status, clipped count (R212). -/
structure CpStat where
  id : Nat
  state : Nat
  status : Nat
  clipped : Nat
  deriving DecidableEq, Repr

/-- What a context carries for its unit (R30, R432, R436); `claims`: the secondary tiles that its commits have asked for (R439). -/
structure UnitCtx where
  u : URef
  hedged : Bool
  expv : BitVec 32
  head : W64
  tx : Nat
  ty : Nat
  tz : Nat
  sealed : Bool := false
  published : Bool := false
  claims : List W64 := []
  deriving DecidableEq, Repr

/-- A hardware context. `resv`: a dispatcher has reserved it for a unit that is being placed (R89). `nest`: traps taken inside a
trap and not returned from (R147). `replay`, `replaying`: refused accesses, and whether they are being issued again (R150, R171).
`toPost`: held messages of a restored image that are still to be sent (R400). `kept`: words that fetch has read, by PC, with their
physical address (R106); `word`: the word of the instruction that was fetched last, which a stalled context goes on with (R79).
`repair`: the STREL that this handler context repairs (R298). `fpNow`: the flags that operations have completed with at this GTIME, which
an MTC to FPFLAGS of the same cycle does not clear (R227). `ldPC` to `ldNest`: what the ERET that enters a state loaded by CTXLD sets
(R147, R400). -/
structure Ctx where
  st : CSt := .idle
  was : CSt := .idle
  haltCtl : Bool := false
  haltPwr : Bool := false
  haltSwap : Bool := false
  stopReq : Bool := false
  kind : Kind := .unit
  vi : Nat := 0
  x : Tbl W64 := []
  v : Tbl VReg := []
  k : Tbl W64 := []
  pc : W64 := 0
  fmt : Option Word := none
  fromPfx : Bool := false
  priv : Bool := false
  ppriv : Bool := false
  pendPfx : Bool := false
  feed : Bool := false
  cause : W64 := 0
  epc : W64 := 0
  tval : W64 := 0
  trapvec : W64 := 0
  upcallvec : W64 := 0
  tilecoord : W64 := 0
  geom : W64 := 0
  workctr : W64 := 0
  vismax : Nat := 0
  fpflags : BitVec 6 := 0
  fpNow : BitVec 6 := 0
  fprnd : BitVec 2 := 0
  seqValid : Bool := false
  seqSeg : Nat := 0
  pfxsave : W64 := 0
  msh : Tbl W64 := []
  cp : CpRegs := {}
  lps : Tbl W64 := []
  lpe : Tbl W64 := []
  lpc : Tbl W64 := []
  dlen : Bool := true
  holdlg : Nat := 20
  ops : List Op := []
  wait : WaitOn := .free
  pend : Pend := {}
  inTrap : Bool := false
  nest : Nat := 0
  inUpcall : Bool := false
  upcallDue : Bool := false
  replay : List Op := []
  replaying : Bool := false
  toPost : List (W64 × Body) := []
  ldPC : Option W64 := none
  ldPriv : Bool := false
  ldIn : Bool := false
  ldNest : Nat := 0
  replayDue : Bool := false
  shadow : Option Shadow := none
  mop : Option MOp := none
  tiles : List Nat := []
  rc : Nat := 0
  unit : Option UnitCtx := none
  pins : List Pin := []
  runBase : Nat := 0
  runLen : Nat := 0
  left : List (Nat × Nat) := []
  held : List Held := []
  waiting : Option WaitE := none
  cpSeq : Nat := 0
  cpStat : List CpStat := []
  commit : Option Commit := none
  budget : Nat := 0
  budgetAt : Nat := 0
  perCycle : Nat := 1
  noBudget : Bool := false
  mbox : Option Nat := none
  task : Option Task := none
  hmsg : Option HostMsg := none
  resv : Bool := false
  kept : Tbl (Nat × Word) := []
  word : Option Word := none
  repair : Option Req := none
  yield : Option Nat := none
  stamp : Nat := 0
  idleWake : Bool := false
  ending : Option Nat := none
  deriving DecidableEq, Repr

/-- The kind of a line in an L1 (R161, R172, R175, R326). -/
inductive L1Kind where
  | leased (expiry : Nat)
  | owned (dirty : Bool)
  | locked (xk : Nat)
  deriving DecidableEq, Repr

/-- A line of an L1; `perm`: reads (1) and writes (2) that its page allowed when it was filled (R167). -/
structure L1Line where
  vi : Nat
  va : W64
  home : Nat
  pa : Nat
  kind : L1Kind
  data : List Byte
  perm : Nat := 3
  deriving DecidableEq, Repr

/-- A write-back that is not acknowledged, and whether it was voluntary (R173). -/
structure WbOut where
  serial : Nat
  vi : Nat
  va : W64
  vol : Bool
  deriving DecidableEq, Repr

/-- A page being flushed at its owner (R173). -/
structure Flushing where
  vi : Nat
  page : W64
  size : Nat
  die : Nat
  inflight : Bool
  deriving DecidableEq, Repr

/-- An entry of a buffer table (R179), and under which save its creator or holder is suspended (R391). -/
structure Buf where
  valid : Bool := false
  gen : Nat := 0
  base : Nat := 0
  len : Nat := 0
  vi : Nat := 0
  creator : Nat := 0
  holder : Nat := 0
  creatorS : Option Nat := none
  holderS : Option Nat := none
  deriving DecidableEq, Repr

/-- A mailbox with its actor (R343, R344, R353). -/
structure Mbox where
  spill : Bool := false
  frz : Bool := false
  run : Bool := false
  en : Bool := false
  count : Nat := 0
  refcnt : Nat := 0
  depthm1 : Nat := 0
  size : Nat := 0
  type : Nat := 0
  pc : W64 := 0
  ring : Nat := 0
  st : Nat := 0
  stlen : Nat := 0
  vi : Nat := 0
  headSlot : Nat := 0
  hdrs : List Nat := []
  unbinding : Bool := false
  area : Bool := false
  spillBase : W64 := 0
  spillLog : Nat := 0
  spillHead : Nat := 0
  spillCount : Nat := 0
  replaying : Bool := false
  deriving DecidableEq, Repr

/-- An entry of the waiting-task table (R357). -/
structure WTask where
  armed : Bool := false
  vi : Nat := 0
  pc : W64 := 0
  a0 : W64 := 0
  a1 : W64 := 0
  thresh : Nat := 0
  fired : List Task := []
  deriving DecidableEq, Repr

/-- Work of the handler queue (R68, R304). -/
inductive HWork where
  | msg (m : HandMsg)
  | atomic (q : Req)
  deriving DecidableEq, Repr

/-- The interface of work that waits for a handler context. -/
def HWork.vi (w : HWork) : Nat := match w with | .msg m => m.vi | .atomic q => q.vi

/-- An STREL that its context's end found held: it leaves once these stores are acknowledged and GTIME has reached `vis` (R310, log 105). -/
structure LateRel where
  q : Req
  vis : Nat
  stores : List Nat
  deriving DecidableEq, Repr

/-- A message in a message unit and whether it was refused (R345, R347). -/
structure MuMsg where
  m : Msg
  xk : Nat
  op : Nat
  held : Bool := false
  inflight : Bool := true
  gone : Bool := false
  due : Nat := 0
  deriving DecidableEq, Repr

/-- A copy in the copy queue: transfer id, context, operation, snapshot, the stores it waits for, and how far it is (R199 to R207):
the row and offset of its next destination bytes, the source bytes read for them, what a conditional copy has read, the requests that
are out, the lines written whose last byte is still to come, whether the payload is over, and whether its completion word has been sent. -/
structure CopyE where
  id : Nat
  ctx : Nat
  op : Nat
  vi : Nat
  r : CpRegs
  after : List Nat := []
  running : Bool := false
  row : Nat := 0
  off : Nat := 0
  buf : List Byte := []
  data : List Byte := []
  out : List Nat := []
  touched : List (Nat × Nat) := []
  moved : Bool := false
  word : Bool := false
  status : Nat := 0
  vt : Nat := 0
  deriving DecidableEq, Repr

/-- A ghost entry (R325, R329, R391). -/
structure Ghost where
  w : Waiter
  key : LKey
  next : Option Waiter := none
  holds : Option Nat := none
  saved : Option Nat := none
  asked : Bool := false
  told : Bool := false
  status : Nat := 0
  data : List Byte := []
  extra : Bool := false
  breaking : Bool := false
  lost : Bool := false
  deriving DecidableEq, Repr

/-- A notice-table entry (R379). -/
structure NoticeE where
  token : Nat
  ctx : Nat
  block : Option Nat := none
  got : Option Bool := none
  deriving DecidableEq, Repr

/-- A saved context (R391). -/
structure Saved where
  id : Nat
  ctx : Nat
  c : Ctx
  deriving DecidableEq, Repr

/-- A logical core. `hq`: its handler queue (R68); `repairs`: STRELs whose repair waits for a handler context (R298, R348). `mxNow`: the context that its matrix unit serves, with the time at which a tile operation completes, or 0 for the
steps of a macro-op's segment (R271). -/
structure Core where
  hrun : Nat := 0
  lastGen : Nat := 5
  nextCycle : Nat := 0
  l1 : List L1Line := []
  wbs : List WbOut := []
  flushing : List Flushing := []
  empty : List Nat := []
  bufs : Tbl Buf := []
  mbs : Tbl Mbox := []
  ec : Tbl Nat := []
  wt : Tbl WTask := []
  tasks : List Task := []
  taskRef : Nat := 0
  hslots : List HostMsg := []
  hq : List HWork := []
  repairs : List Req := []
  late : List LateRel := []
  msgs : List MuMsg := []
  pairSeq : List (W64 × Nat) := []
  copies : List CopyE := []
  amoSeq : Tbl Nat := []
  amoOut : List (Nat × Req) := []
  ghosts : List Ghost := []
  links : List (Waiter × Waiter) := []
  notices : List NoticeE := []
  saveId : Nat := 0
  saved : List Saved := []
  rrMb : Nat := 15
  lastMx : Nat := 7
  mxNow : Option (Nat × Nat) := none
  heldLoads : List Req := []
  deriving DecidableEq, Repr

/-- The states of a lock-table entry (R327); FREE is the absence of an entry. -/
inductive LSt where
  | held | queued | breaking | orphan
  deriving DecidableEq, Repr

/-- A lock-table entry (R327); `parked`: the requests that a break holds, and whether each still is to be probed. -/
structure LockE where
  addr : Nat
  st : LSt
  holder : Option Waiter
  tail : Option Waiter
  nwait : Nat := 0
  deadline : Nat := 0
  stamp : Nat := 0
  parked : List (Req × Bool) := []
  deriving DecidableEq, Repr

/-- A probe at the home that started it (R332). -/
structure ProbeE where
  q : Req
  hops : Nat
  first : Waiter
  deriving DecidableEq, Repr

/-- A watch binding (R358, R359). -/
structure Watch where
  vi : Nat
  ck : Nat
  va : W64
  pa : Nat
  len : Nat
  mask : W64
  pc : W64
  a0 : W64
  gen : Nat
  live : Bool
  deriving DecidableEq, Repr

/-- The recorded reply to a lock request (R306): none, ENQUEUED, or a grant with its status and data. -/
inductive LockRep where
  | none | enqueued
  | grant (status : Nat) (data : List Byte)
  deriving DecidableEq, Repr

/-- A reply record: source core, sequence number, value, flags and time of an atomic, or the reply to a lock request (R306). -/
structure Rec where
  src : Nat
  part : Nat
  seq : Nat
  old : W64
  flags : Nat
  vt : Nat
  lock : LockRep := .none
  key : Nat := 0
  deriving DecidableEq, Repr

/-- A table entry that a translation home has read for a page of an interface and may keep: its address and its two words (R167). -/
structure TlbE where
  vi : Nat
  page : Nat
  at_ : Nat
  w0 : Nat
  w1 : Nat
  deriving DecidableEq, Repr

/-- A home: an L2 slice, or the scratchpad of a core (R174, R216, R286, R306, R324, R358). `lmax`: the lines that a slice holds, each
with its LMAX. -/
structure Home where
  lmax : Tbl Nat := []
  floor : Nat := 0
  locks : List LockE := []
  probes : List ProbeE := []
  watches : List Watch := []
  waddrs : List Req := []
  recs : List Rec := []
  msgs : List MuMsg := []
  deriving DecidableEq, Repr

/-- A page being reclassified at its translation home with the requests it holds (R173). -/
structure Reclass where
  vi : Nat
  page : W64
  size : Nat
  leaf : Nat
  reqs : List Req
  inval : Option Nat := none
  deriving DecidableEq, Repr

/-- A fault-buffer entry as the home knows it (R381, R384). -/
structure FbEnt where
  token : Nat
  valid : Bool
  vi : Nat
  va : W64
  side : Nat
  ck : Option Nat
  migr : Bool
  ackAt : Nat
  deriving DecidableEq, Repr

/-- A swap of two logical cores of a die (R83). -/
structure Swap where
  a : Nat
  b : Nat
  deriving DecidableEq, Repr

/-- A die: core map, swaps (`swapNext`: hot physical cores whose migration waits, R393), split, translation home, dispatcher, actor commands
and ramp tables. -/
structure Die where
  cmap : Tbl Nat := []
  swap : Option Swap := none
  swapNext : List Nat := []
  swpReg : W64 := 0
  split : Nat := 0
  splitNew : Nat := 0
  splitPend : Bool := false
  avsel : W64 := 0
  avstatus : Nat := 0
  avpend : Nat := 0
  avspill : W64 := 0
  avsave : W64 := 0
  avarea : W64 := 0
  fbbase : W64 := 0
  wm : Nat := 512
  ovf : Bool := false
  lowint : Bool := false
  fbcount : Nat := 0
  fbseq : Nat := 0
  fbents : Tbl FbEnt := []
  fbirq : Nat := 0
  ctxctl : W64 := 0
  ctxstatus : Nat := 0
  ctxPend : Nat := 0
  ctxWait : Bool := false
  reclass : List Reclass := []
  ptr : Nat := 0
  deficit : Tbl Nat := []
  lastVi : Tbl Nat := []
  turn : Tbl Bool := []
  reports : Tbl (Nat × Nat) := []
  backups : List BReq := []
  placeFrom : Nat := 0
  ramp0 : W64 := 0x201C1814100C0804
  ramp1 : W64 := 0x403C3834302C2824
  dwell : Nat := 16
  deriving DecidableEq, Repr

/-- The counters of an interface (R444). -/
structure Counters where
  hedgedeny : W64 := 0
  hedgedrop : W64 := 0
  scopemiss : W64 := 0
  lkdeadlock : W64 := 0
  lkbreak : W64 := 0
  lkskip : W64 := 0
  uwon : W64 := 0
  ufail : W64 := 0
  ucancel : W64 := 0
  cbusy : W64 := 0
  lastfail : W64 := 0
  deriving DecidableEq, Repr

/-- The states of a launch (R85). -/
inductive LnSt where
  | blocked | eligible | drain | placed | complete | cancelled
  deriving DecidableEq, Repr

/-- Where a copy of a unit stands (R89). -/
inductive CpSt where
  | placing | pinning | resident | ended
  deriving DecidableEq, Repr

/-- A copy of a unit as its dispatcher knows it, with what it reserved and the monitor's samples (R89, R94, R96, R103); `dev`: the
device that it runs on, where that is another one (R98). -/
structure CopyRec where
  copy : Nat
  die : Nat
  xk : Nat
  st : CpSt
  base : Nat
  len : Nat
  ntile : Nat
  start : Nat := 0
  stop : Nat := 0
  pins : List (Nat × Pin) := []
  due : List Nat := []
  pinId : Nat := 0
  cancel : Bool := false
  lastWork : Option W64 := none
  samples : List Nat := []
  saved : Bool := false
  dev : Option Nat := none
  deriving DecidableEq, Repr

/-- How a unit retired (R441). -/
inductive URes where
  | won | void | failed (code : Nat) | cancelled
  deriving DecidableEq, Repr

/-- A unit that has left QUEUED: descriptor snapshot (64 bytes), copies, seal, hedging (R20, R89, R96 to R103); `devReq`: the granted
request that waits on another device. -/
structure UnitRec where
  idx : Nat
  snap : List Byte := []
  copies : List CopyRec := []
  sealed : Bool := false
  res : Option URes := none
  winner : Option Nat := none
  fail : Nat := 0
  granted : Bool := false
  devReq : Option BReq := none
  nback : Nat := 0
  hold : Option Nat := none
  sumE : Nat := 0
  t0 : Option Nat := none
  settled : Bool := false
  deriving DecidableEq, Repr

/-- A launch (R13 to R17, R84, R85, R443). -/
structure Launch where
  vi : Nat
  lid : Nat
  graph : Nat
  phase : Nat
  job : Nat
  geom : W64
  tilebase : W64
  udbase : W64
  codebase : W64
  preds : List Nat
  prio : Nat
  spkib : Nat
  ntile : Nat
  gx : Nat
  gy : Nat
  gz : Nat
  gang : Bool
  queue : Nat
  home : Nat
  when_ : Nat
  order : Nat
  st : LnSt
  units : List UnitRec := []
  moved : Tbl Nat := []
  nextIn : Tbl Nat := []
  retired : Nat := 0
  fail : Bool := false
  cancelled : Bool := false
  later : Nat := 0
  remembered : Bool := true
  vis : Nat := 0
  stores : List Nat := []
  deriving DecidableEq, Repr

/-- A graph (1), phase (2) or job (3) (R13, R49, R51, R443). -/
structure Level where
  kind : Nat
  id : Nat
  queue : Nat := 0
  closed : Bool := false
  members : Nat := 0
  done : Nat := 0
  fail : Bool := false
  cancelled : Bool := false
  complete : Bool := false
  later : Nat := 0
  vis : Nat := 0
  stores : List Nat := []
  deriving DecidableEq, Repr

/-- A virtual interface (R35 to R37, R88, R100, R101, R164, R333, R372, R398, R444). `budgetBusy`: the device has changed the
hedging budget at this GTIME, so that a write of software in the same cycle, which goes first, can no longer come (R102). -/
structure Vi where
  en : Bool := false
  quiesced : Bool := true
  keyv : Bool := false
  keyWait : Bool := false
  keySlots : List Nat := []
  gen : Nat := 0
  ptbase : W64 := 0
  pten : Bool := false
  vitrap : W64 := 0
  lklog : W64 := 0
  tlbAddr : W64 := 0
  tlbAll : Bool := false
  tlbBusy : Bool := false
  tlbLeft : Nat := 0
  tlbT : Nat := 0
  hedgecfg : W64 := 0
  level : Int := 0
  cap : Nat := 0
  fill : Nat := 0
  budgetBusy : Bool := false
  drrw : Nat := 1
  ctr : Counters := {}
  launches : List Launch := []
  levels : List Level := []
  deriving DecidableEq, Repr

/-- A record that a queue owes (R55, R56), with the release of R57: the latest visibility time of the writes it covers, and
the stores of them that are still out. -/
structure Owed where
  opc : Nat
  status : Nat
  tag : Nat
  value : W64
  msg : Option (Nat × Nat) := none
  at_ : Nat := 0
  stores : List Nat := []
  deriving DecidableEq, Repr

/-- Entries accepted and not complete, for QFENCE and the records to come (R52, R56). -/
inductive Entry where
  | launch (order lid tag : Nat) (cpl : Bool)
  | level (kind id : Nat) (tag : Nat) (cpl : Bool)
  | cancel (kind id : Nat) (tag : Nat) (cpl : Bool)
  | hmsg (serial tag : Nat) (cpl : Bool)
  deriving DecidableEq, Repr

/-- A work queue (R38 to R43); `open_` lists each entry with the interface it was taken for; `vis` and `stores`: what a release
over the work of completed entries still waits for (R52, R57). -/
structure Queue where
  err : Nat := 0
  csz : Nat := 0
  qsz : Nat := 0
  pmax : Nat := 0
  vi : Nat := 0
  run : Bool := false
  en : Bool := false
  qbase : W64 := 0
  cbase : W64 := 0
  qhead : BitVec 32 := 0
  qtail : BitVec 32 := 0
  ctail : BitVec 32 := 0
  chead : BitVec 32 := 0
  owed : List Owed := []
  open_ : List (Nat × Entry) := []
  vis : Nat := 0
  stores : List Nat := []
  fence : Option (Nat × Bool) := none
  hm : Option HostMsg := none
  deriving DecidableEq, Repr

/-- A class entry of a hedge monitor (R95): rate and total counts by bucket, last sample. -/
structure ClassE where
  vi : Nat
  hclass : Nat
  rate : List Nat
  total : List Nat
  last : Nat
  deriving DecidableEq, Repr

/-- A row of cores and its power state (R402, R408, R410, R412); `since`: the step in which LVL last changed. -/
structure Row where
  vcur : Nat := 75
  vreq : Nat := 75
  stepping : Bool := false
  boostreq : Bool := false
  boosted : Bool := false
  clim : Bool := false
  ceil : Nat := 15
  eceil : Nat := 15
  lvl : Nat := 0
  deny : Nat := 0
  since : Nat := 0
  limitSteps : Nat := 0
  droop : Bool := false
  droopUntil : Nat := 0
  rr : Nat := 0
  deriving DecidableEq, Repr

/-- A physical core's power state (R403). -/
structure PCore where
  hop : Bool := false
  off : Bool := false
  hot : Bool := false
  deny : Nat := 0
  thr : Nat := 0
  dcur : Nat := 0
  dreq : Nat := 0
  deriving DecidableEq, Repr

/-- The package's power registers (R413 to R415). -/
structure Power where
  cfg : W64 := 0x695C800A00002800
  pwr : Nat := 0
  emerg : Bool := false
  emergCond : Bool := false
  slowLeft : Nat := 0
  slowFl : Nat := 0
  slowNext : Option (Nat × Nat) := none
  denycnt : Nat := 0
  fabMask : Nat := 0
  fabSlotw : Nat := 0
  fabNslot : Nat := 0
  fabSlowd : Nat := 0
  fabSlowf : Nat := 0
  staggerUntil : Nat := 0
  deriving DecidableEq, Repr

/-- The permits of a receive pool that are free: of each class's reserve of 32 and of the shared part of 768, and the shared ones that
each interface holds (R66). -/
structure Permits where
  res : Tbl Nat := []
  shared : Nat := 768
  held : Tbl Nat := []
  deriving DecidableEq, Repr

/-- A fabric port (R60, R63, R66, R70 to R72): lanes and state (`up` trained, `keyed` carrying every class); flits sent,
acknowledged, failed in a row and to send again; permits held; the key slot it sends under, the last flit of the slot before,
the stage of its rollover (0 none, 3 the receiver is to acknowledge its key, 1 old flits unacknowledged, 2 KEYDONE sent), the key slots
of its receive direction, the oldest first; flits received, the failures in a row of the next one, the free permits of its receive pool,
and link-control flits sent and received. -/
structure Port where
  lanes : Nat := 0
  up : Bool := false
  down : Bool := false
  keyed : Bool := false
  ctr : Nat := 0
  acked : Nat := 0
  nakRow : Nat := 0
  resend : Nat := 0
  resFree : Tbl Nat := []
  sharedFree : Nat := 768
  sharedVi : Tbl Nat := []
  txSlot : Nat := 0
  oldSlotLast : Nat := 0
  rolling : Nat := 0
  rxKeys : List Nat := []
  rxCtr : Nat := 0
  rxRow : Nat := 0
  rx : Permits := {}
  ctlSent : Nat := 0
  ctlGot : Nat := 0
  deriving DecidableEq, Repr

/-- The algorithms of the SPDM responder (R75). -/
inductive SpdmAlg where
  | ecdsaP256 | sha256
  deriving DecidableEq, Repr

/-- An SPDM response: what R75 gives of it, and a payload where it gives none (log 9). -/
inductive SpdmRsp where
  | version (v : Nat)
  | capabilities (p : List Byte)
  | algorithms (l : List SpdmAlg)
  | digests (d : BitVec 256)
  | certificate (p : List Byte)
  | challengeAuth (p : List Byte)
  | measurement (index : Nat) (d : Option (BitVec 256))
  | keyExchange (p : List Byte)
  | finish (p : List Byte)
  | endSession
  deriving DecidableEq, Repr

/-- Tantalum (R73 to R75): TSTAT, the measurements of boot, the SPDM session of each requester (0 none, 1 keys exchanged,
2 finished), and the responses it has sent. -/
structure Tantalum where
  image : Nat := 0
  fail : Nat := 0
  stage : Nat := 0
  meas : List (BitVec 256) := []
  sessions : Tbl Nat := []
  outbox : List (Nat × SpdmRsp) := []
  deriving DecidableEq, Repr

/-- The events as the state holds them: messages in flight, timers and pending inputs. One constructor per event row of
the opcode table, with the data of the constructor of `Instr` of the same name. -/
inductive Ev where
  /-- RECEIVER_FAULT (R171). -/
  | receiverFault (xk : Nat) (r : Option Refused)
  /-- UPCALL (R378). -/
  | upcall (xk : Nat)
  /-- NOTICE (R379). -/
  | notice (ck token : Nat) (err : Bool)
  /-- FBACK (R382). -/
  | fback (die : Nat) (value : W64)
  /-- FAULT_RETRY (R383). -/
  | faultRetry (q : Req)
  /-- HALT (R385). -/
  | halt (die core ctx : Nat)
  /-- HALTALL (R385). -/
  | haltAll (die core : Nat)
  /-- RESUME (R388). -/
  | resume (die core ctx : Nat)
  /-- TLBCMD (R398). -/
  | tlbcmd (vi : Nat) (value : W64)
  /-- INVAL (R398). -/
  | inval (die vi : Nat) (all : Bool) (va : W64) (by_ : Option Nat)
  /-- CMAPSWP (R83). -/
  | cmapswp (die : Nat) (value : W64)
  /-- SWAP_TRANSFER_DONE (R392). -/
  | swapTransferDone (die : Nat)
  /-- SRSPLIT (R160). -/
  | srsplit (die : Nat) (value : W64)
  /-- SPLIT_EFFECT (R160). -/
  | splitEffect (die : Nat)
  /-- TAILW (R40). -/
  | tailw (vi slot : Nat) (value : W64)
  /-- CHEADW (R40). -/
  | cheadw (vi slot : Nat) (value : W64)
  /-- QTAIL (R42). -/
  | qtail (queue tail : Nat)
  /-- QCHEAD (R42). -/
  | qchead (queue head : Nat)
  /-- QCTL (R41). -/
  | qctl (queue : Nat) (value : W64)
  /-- VICTL (R37). -/
  | victl (vi : Nat) (value : W64)
  /-- KEY_INSTALL (R37). -/
  | keyInstall (vi : Nat)
  /-- TEARDOWN_COMPLETE (R37). -/
  | teardownComplete (vi : Nat)
  /-- LAUNCH (R48). -/
  | qLaunch (queue : Nat)
  /-- GRAPH (R49). -/
  | qGraph (queue : Nat)
  /-- CANCEL (R50). -/
  | qCancel (queue : Nat)
  /-- HMSG_ENTRY (R58). -/
  | hmsgEntry (queue : Nat)
  /-- QFENCE (R52). -/
  | qfence (queue : Nat)
  /-- ENTRY_UNREADABLE (R54). -/
  | entryUnreadable (queue : Nat)
  /-- COMPLETION_RECORD (R57). -/
  | completionRecord (queue : Nat)
  /-- CWRITE (R461). -/
  | cwrite (queue : Nat)
  /-- HMSG_DELIVERY (R58). -/
  | hmsgDelivery (m : HostMsg)
  /-- HMSG_RETRY (R58). -/
  | hmsgRetry (m : HostMsg)
  /-- HANDLER_MESSAGE (R68). -/
  | handlerMessage (m : HandMsg)
  /-- PLACEMENT_DECISION (R86). -/
  | placementDecision (die : Nat)
  /-- BLOCK_STEAL (R84). -/
  | blockSteal (die : Nat)
  /-- DISPATCH_REPORT (R84). -/
  | dispatchReport (die frm untouched queued : Nat)
  /-- DESCRIPTOR_READ (R89). -/
  | descriptorRead (u : URef)
  /-- PIN_REQUEST (R29). -/
  | pinRequest (q : Req)
  /-- PIN_REPLY (R89). -/
  | pinReply (q : Req) (home : Nat) (ans : PinAns)
  /-- PIN_RETRY (R29). -/
  | pinRetry (q : Req)
  /-- GANG_DRAIN (R92). -/
  | gangDrain (vi lid : Nat)
  /-- GANG_RESERVE (R92). -/
  | gangReserve (vi lid : Nat)
  /-- HEDGE_SAMPLE (R94). -/
  | hedgeSample
  /-- BUDGET_CHECK (R102). -/
  | budgetCheck (b : BReq)
  /-- BACKUP_REQUEST (R98). -/
  | backupRequest (b : BReq)
  /-- HEDGE_REQUEST_TIMEOUT (R98). -/
  | hedgeRequestTimeout (b : BReq)
  /-- BUDGET_REFILL (R102). -/
  | budgetRefill
  /-- TRANSLATE (R163). -/
  | translate (q : Req)
  /-- LOAD_REQUEST (R175). -/
  | loadRequest (q : Req)
  /-- LOAD_REPLY (R175). -/
  | loadReply (q : Req) (data fill : List Byte) (expiry : Nat)
  /-- STORE_REQUEST (R176). -/
  | storeRequest (q : Req)
  /-- STORE_ACK (R177). -/
  | storeAck (q : Req) (vt : Nat)
  /-- LEASE_EXPIRY (R175). -/
  | leaseExpiry (ck : Nat) (vi : Nat) (va : W64)
  /-- WRITE_BACK (R172). -/
  | writeBack (w : WriteBack)
  /-- FLUSH (R173). -/
  | flush (ck vi : Nat) (page : W64) (size : Nat) (die : Nat)
  /-- FLUSHACK (R173). -/
  | flushAck (die vi : Nat) (page : Flushed)
  /-- HANDLE_UPDATE (R188). -/
  | handleUpdate (q : Req)
  /-- COPY_BEGIN (R199). -/
  | copyBegin (ck : Nat)
  /-- COPY_CONDITIONAL_WRITE (R205). -/
  | copyConditionalWrite (ck id : Nat)
  /-- COPY_COMPLETE (R207). -/
  | copyComplete (ck id : Nat)
  /-- WADDR_RETRY (R216). -/
  | waddrRetry (q : Req)
  /-- TILE_OP_COMPLETE (R275). -/
  | tileOpComplete (xk op : Nat)
  /-- SEGMENT_COMPLETE (R279). -/
  | segmentComplete (xk : Nat)
  /-- SCOPE_MISS (R298). -/
  | scopeMiss (q : Req)
  /-- ATOMIC_REQUEST (R304). -/
  | atomicRequest (q : Req)
  /-- ATOMIC_REPLY (R305). -/
  | atomicReply (q : Req) (old : W64) (vt flags : Nat)
  /-- ATOMIC_RESEND (R306). -/
  | atomicResend (q : Req)
  /-- LOCK_REQUEST (R327). -/
  | lockRequest (q : Req)
  /-- LKQ_REQUEST (R340). -/
  | lkqRequest (q : Req)
  /-- LOCK_TABLE_RETRY (R324). -/
  | lockTableRetry (q : Req)
  /-- ENQUEUED (R324). -/
  | enqueued (q : Req)
  /-- LINK (R329). -/
  | lkLink (tgt : Waiter) (k : LKey) (w : Waiter)
  /-- GRANT (R329). -/
  | grant (tgt : Waiter) (k : LKey) (status : Nat) (data : List Byte)
  /-- HANDOFF (R327). -/
  | handoff (k : LKey) (frm new : Waiter)
  /-- RELEASE (R327). -/
  | lkRelease (k : LKey) (frm : Waiter) (status : Nat)
  /-- WAITLINK (R328). -/
  | waitlink (tgt : Waiter) (k : LKey)
  /-- BREAK (R330). -/
  | lkBreak (tgt : Waiter) (k : LKey)
  /-- BREAKACK (R327). -/
  | breakAck (k : LKey) (frm : Waiter) (next : Option Waiter) (released : Bool)
  /-- HOLD_DEADLINE (R327). -/
  | holdDeadline (k : LKey) (stamp : Nat)
  /-- LOCK_DEADLINE (R329). -/
  | lockDeadline (xk eid : Nat)
  /-- SKIP_TIMER (R329). -/
  | skipTimer (xk eid : Nat)
  /-- PROBE (R332). -/
  | probe (q : Req) (hops : Nat) (h : Waiter) (first : Waiter)
  /-- PROBE_RESULT (R332). -/
  | probeResult (q : Req) (dead : Bool) (hops : Nat) (first : Waiter)
  /-- DEADLOCK_REPORT (R333). -/
  | deadlockReport (vi : Nat) (line : W64) (xk hops first : Nat)
  /-- MESSAGE_ARRIVAL (R346). -/
  | messageArrival (m : Msg)
  /-- REOFFER (R347). -/
  | reoffer (m : Msg)
  /-- WITHDRAW (R347). -/
  | withdraw (m : Msg)
  /-- MESSAGE_ANSWER (R347). -/
  | messageAnswer (m : Msg) (ans : Nat)
  /-- HANDLER_RUN_START (R348). -/
  | handlerRunStart (ck : Nat)
  /-- HBUDGET (R350). -/
  | hbudget (xk : Nat)
  /-- TASK (R354). -/
  | taskArrive (m : Msg)
  /-- TASK_START (R354). -/
  | taskStart (ck : Nat)
  /-- CALLAT_REPLY (R355). -/
  | callatReply (caller : Caller) (cell : W64) (args : List W64) (status : Nat)
  /-- RWI_ARRIVAL (R356). -/
  | rwiArrival (q : Req)
  /-- WATCH_REQUEST (R358). -/
  | watchRequest (q : Req)
  /-- WATCH_RETRY (R358). -/
  | watchRetry (q : Req)
  /-- FREEZE (R353). -/
  | freeze (die : Nat)
  /-- THAW (R353). -/
  | thaw (die : Nat)
  /-- EVICT (R353). -/
  | evict (die : Nat)
  /-- RESTORE (R353). -/
  | restore (die : Nat)
  /-- ACTOR_RESUME (R353). -/
  | actorResume (die : Nat)
  /-- SPILL_REPLAY (R353). -/
  | spillReplay (ck mb : Nat)
  /-- IDLE_TIMEOUT (R397). -/
  | idleTimeout (xk stamp : Nat)
  /-- YIELD_EXPIRY (R153). -/
  | yieldExpiry (xk stamp : Nat)
  /-- GTWAIT_EXPIRY (R311). -/
  | gtwaitExpiry (xk stamp : Nat)
  /-- CLAIM_REQUEST (R433). -/
  | claimRequest (q : Req)
  /-- CLAIM_ANSWER (R435). -/
  | claimAnswer (q : Req) (ans : ClaimAns)
  /-- CLAIM_RETRY (R433). -/
  | claimRetry (q : Req)
  /-- WIN_NOTICE (R435). -/
  | winNotice (u : URef)
  /-- COMMIT_BUSY_RETRY (R437). -/
  | commitBusyRetry (q : Req)
  /-- STREAM_LINE (R437). -/
  | streamLine (q : Req) (refused : Bool)
  /-- PUBLISH (R438). -/
  | publish (q : Req)
  /-- GROUP_CLAIM (R439). -/
  | groupClaim (q : Req)
  /-- CLAIM_RELEASE (R440). -/
  | claimRelease (q : Req)
  /-- CANCEL_COPY (R440). -/
  | cancelCopy (xk reason : Nat) (u : Option URef)
  /-- ROWPWR (R405). -/
  | rowpwr (row : Nat) (value : W64)
  /-- COREPWR (R405). -/
  | corepwr (pcore : Nat) (value : W64)
  /-- VOLTAGE_STEP (R404). -/
  | voltageStep (row : Nat)
  /-- CLOCK_HOP (R406). -/
  | clockHop (pcore : Nat)
  /-- DROOP (R408). -/
  | droop (row : Nat)
  /-- RAMP_STEP (R410). -/
  | rampStep
  /-- CONTROL_INTERVAL (R412). -/
  | controlInterval
  /-- FABPWR_STAGGER (R414). -/
  | fabpwrStagger (value : W64)
  /-- FABPWR_SLOW (R414). -/
  | fabpwrSlow (value : W64)
  /-- STAGGER (R414). -/
  | stagger (nslot slotw : Nat)
  /-- SLOW (R414). -/
  | slow (floor intervals : Nat)
  /-- SUPPLY_EMERGENCY (R415). -/
  | supplyEmergency
  /-- EMERG (R415). -/
  | emerg (value : W64)
  /-- TANTALUM_BOOT (R73). -/
  | tantalumBoot (manifest : Manifest) (flash : List (Option (List Byte)))
  /-- PORT_TRAINING (R70). -/
  | portTraining (port lanes : Nat)
  /-- NAK (R63). -/
  | nak (port : Nat)
  /-- LINK_ACK (R63). -/
  | linkAck (port upto : Nat)
  /-- PERMIT_RETURN (R66). -/
  | permitReturn (port cls vi n : Nat) (shared : Bool)
  /-- PORT_DOWN (R60). -/
  | portDown (port : Nat)
  /-- KEY_ROLLOVER (R72). -/
  | keyRollover (port : PortDir)
  /-- KEYDONE (R72). -/
  | keydone (port : Nat)
  /-- KEYACK (R72). -/
  | keyack (port : Nat)
  /-- GET_VERSION (R75). -/
  | getVersion (requester : Nat)
  /-- GET_CAPABILITIES (R75). -/
  | getCapabilities (requester : Nat)
  /-- NEGOTIATE_ALGORITHMS (R75). -/
  | negotiateAlgorithms (requester : Nat)
  /-- GET_DIGESTS (R75). -/
  | getDigests (requester : Nat)
  /-- GET_CERTIFICATE (R75). -/
  | getCertificate (requester : Nat)
  /-- CHALLENGE (R75). -/
  | challenge (requester : Nat)
  /-- GET_MEASUREMENTS (R75). -/
  | getMeasurements (requester : Nat) (index : Nat)
  /-- KEY_EXCHANGE (R75). -/
  | keyExchange (requester : Nat)
  /-- FINISH (R75). -/
  | finish (requester : Nat)
  /-- END_SESSION (R75). -/
  | endSession (requester : Nat)
  /-- The response of Tantalum to a requester, on its way out (R64, R75). -/
  | spdmResponse (requester : Nat) (r : SpdmRsp)
  /-- FATAL_ERROR (R452). -/
  | fatalError (cls dies : Nat)
  /-- REGISTER_WRITE (R7). -/
  | registerWrite (offset : Nat) (value : W64)
  /-- ILL (R111). -/
  | ill (w : Word)
  /-- FETCH_FAULT (R105). -/
  | fetchFault (code : Nat) (tval : W64)
  /-- BADOP (R53). -/
  | badop (queue : Nat)
  /-- MCHECK (R374). -/
  | mcheck (xk : Nat)
  /-- VOLTAGE_RECOVERED (R408). -/
  | voltageRecovered (row : Nat)
  /-- EMERGENCY_CLEARED (R415). -/
  | emergencyCleared
  deriving DecidableEq, Repr

/-- A message in flight, or a timer: source and destination nodes, class, earliest time, and the step it makes (R62, R65). -/
structure Flight where
  src : Nat
  dst : Nat
  cls : Cls
  at_ : Nat
  ev : Ev
  deriving DecidableEq, Repr

/-- A request that a home performed at this GTIME: where, its step in a scratchpad's cycle, and its source (R211, R287, R434, R438). -/
structure Did where
  home : Nat
  step : Nat
  key : Nat
  unit : Option URef
  deriving DecidableEq, Repr

/-- The package: everything but memory and the time counter. `bridge`: it is the bridge device of its group (R31); `bad`: the
128-byte lines of memory whose data hold an uncorrectable error now (R374, log 86); `wrote`: the last writer of a 4-byte word of
memory, by address over 4, and the time at which its change is globally visible (R106). `turn` is the model's own (log 5): the
context that issues next, where an observer has chosen it; `picks` and `frees` count the free choices and values used so far. -/
structure Chip where
  wr : List Wr := []
  cur : Nat := 0
  turn : Option Nat := none
  group : Nat := 0
  bridge : Bool := true
  bad : List Nat := []
  ctxs : Tbl Ctx := []
  cores : Tbl Core := []
  homes : Tbl Home := []
  dies : Tbl Die := []
  vis : Tbl Vi := []
  queues : Tbl Queue := []
  mons : Tbl (List ClassE) := []
  rows : Tbl Row := []
  pcores : Tbl PCore := []
  ports : Tbl Port := []
  slset : Tbl W64 := []
  power : Power := {}
  tan : Tantalum := {}
  dumpValid : Bool := false
  dumpBase : W64 := 0
  stopped : Bool := false
  tags : Tbl Nat := []
  tlb : List TlbE := []
  wrote : Tbl (List (Nat × Nat)) := []
  net : List Flight := []
  inputs : List Ev := []
  outbox : List (Nat × Ev) := []
  shipped : List (Nat × Ev) := []
  replays : List (Nat × Op) := []
  did : List Did := []
  didAt : Nat := 0
  serial : Nat := 1
  picks : Nat := 0
  frees : Nat := 0
  nextRefill : Nat := 1250
  nextSample : Nat := 4096
  nextInterval : Nat := 1250
  nextRamp : Nat := 4
  deriving DecidableEq, Repr

/-- The machine: memory, the global time counter GTIME, and the package. R3 lets readings at one instant differ by up to 4
ticks within the package; one counter serves it all here, a skew of 0 (DESIGN CHOICE, log 3). -/
structure State where
  mem : Mem := {}
  now : Nat := 0
  chip : Chip := {}
  deriving DecidableEq, Repr

/-- Why the machine stops. -/
inductive Fault where
  /-- Raised by `step` once FATAL_ERROR has stopped the package (R452). Safe: the package performs no further step. -/
  | packageStopped
  deriving DecidableEq, Repr

/-- Why an instruction has no meaning. -/
inductive Refusal where
  /-- Raised by `exec` for an instruction without a meaning yet. Safe: nothing can be proved of it. -/
  | notModelled (mnemonic : String)
  deriving DecidableEq, Repr

/-- The machine right after reset: every field as the spec says, or as log 2 to 4 and 11 name it. -/
def State.reset : State := {}

end Sys2Proof.Machine
end

