-- ==== Sys2Proof/Machine/Ops.lean ====
section
/-! DEFINITION. The named operations over the state: memory, tables, messages, registers, counters, taking a trap and
returning from one, retiring an instruction. A meaning is a function of what it may only read (`Env`: memory as the
step found it, and GTIME) and of the package; the writes it makes to memory are listed in the package and applied by
`commit` when the step ends. -/
namespace Sys2Proof.Machine
open Sys2Proof

/-- What a step reads and cannot change directly: memory at its start and GTIME. -/
structure Env where
  mem : Mem
  now : Nat
  deriving DecidableEq, Repr

/-! ### Numbers and bytes -/

/-- Bits [lo + n - 1 : lo] of a number. -/
def bits (v lo n : Nat) : Nat := v / 2 ^ lo % 2 ^ n
/-- Bit `i` of a number. -/
def bit (v i : Nat) : Bool := v / 2 ^ i % 2 == 1
/-- A 64-bit word from a number, modulo 2^64 (R131). -/
def w64 (n : Nat) : W64 := BitVec.ofNat 64 n
/-- 1 for true and 0 for false (R131). -/
def b64 (b : Bool) : W64 := if b then 1 else 0
/-- 1 or 0. -/
def bn (b : Bool) : Nat := if b then 1 else 0
/-- The low `n` bits of `v`, sign-extended to 64 bits (R110). -/
def sxt (n v : Nat) : W64 := (BitVec.ofNat n v).signExtend 64
/-- The number of little-endian bytes (R12, R104). -/
def leNat : List Byte → Nat
  | [] => 0
  | b :: r => b.toNat + 256 * leNat r
/-- The `n` little-endian bytes of a number. -/
def leBytes : Nat → Nat → List Byte
  | 0, _ => []
  | n + 1, v => BitVec.ofNat 8 v :: leBytes n (v / 256)
/-- Word `i` of a structure in memory (R12). -/
def wordAt (d : List Byte) (i : Nat) : Nat := leNat ((d.drop (8 * i)).take 8)
/-- Bits [lo + n - 1 : lo] of a structure in memory (R12). -/
def field (d : List Byte) (lo n : Nat) : Nat := bits (leNat d) lo n
/-- The structure with bits [lo + n - 1 : lo] replaced. -/
def setField (d : List Byte) (lo n v : Nat) : List Byte :=
  let x := leNat d
  leBytes d.length (x - bits x lo n * 2 ^ lo + v % 2 ^ n * 2 ^ lo)
/-- Round up to a multiple. -/
def upTo (n m : Nat) : Nat := (n + m - 1) / m * m
/-- The list with the first element that meets `p` changed by `f`. -/
def updFirst (p : α → Bool) (f : α → α) : List α → List α
  | [] => []
  | x :: r => if p x then f x :: r else x :: updFirst p f r
/-- The list with every element that meets `p` changed by `f`. -/
def updAll (p : α → Bool) (f : α → α) (l : List α) : List α := l.map fun x => if p x then f x else x

/-! ### Memory: canonical cells, ranges with undefined contents -/

/-- The byte at an address; an unlisted address reads 0 (log 2). -/
def cellGet : List Host.Cell → Nat → Byte
  | [], _ => 0
  | (a', b) :: r, a => if a' = a then b else cellGet r a
/-- The cells with byte `b` at `a`: sorted by address, and no cell listed that holds 0. -/
def cellPut : List Host.Cell → Nat → Byte → List Host.Cell
  | [], a, b => if b = 0 then [] else [(a, b)]
  | (a', b') :: r, a, b =>
    if a < a' then (if b = 0 then (a', b') :: r else (a, b) :: (a', b') :: r)
    else if a = a' then (if b = 0 then r else (a, b) :: r)
    else (a', b') :: cellPut r a b
/-- The junk ranges without [lo, hi). -/
def cutJunk (lo hi : Nat) : List Junk → List Junk
  | [] => []
  | j :: r =>
    if hi ≤ j.lo ∨ j.hi ≤ lo then j :: cutJunk lo hi r
    else (if j.lo < lo then [⟨j.lo, lo, j.gen⟩] else []) ++ (if hi < j.hi then [⟨hi, j.hi, j.gen⟩] else []) ++ cutJunk lo hi r
/-- The byte at an address: a free value where the contents are undefined (log 6). -/
def Mem.read (m : Mem) (a : Nat) : Byte :=
  match m.junk.find? (fun j => j.lo ≤ a && a < j.hi) with
  | some j => Config.freeByte j.gen a
  | none => cellGet m.cells a
/-- Memory with one byte written. -/
def Mem.put (m : Mem) (a : Nat) (b : Byte) : Mem := { cells := cellPut m.cells a b, junk := cutJunk a (a + 1) m.junk }
/-- Memory with bytes written from `a` up. -/
def Mem.puts (m : Mem) (a : Nat) : List Byte → Mem
  | [] => m
  | b :: r => (m.put a b).puts (a + 1) r
/-- The cells outside [lo, hi). -/
def cellCut (lo hi : Nat) (l : List Host.Cell) : List Host.Cell := l.filter fun p => p.1 < lo || hi ≤ p.1
/-- The junk ranges, rising, with one more that overlaps none of them. -/
def addJunk (n : Junk) : List Junk → List Junk
  | [] => [n]
  | j :: r => if n.lo < j.lo then n :: j :: r else j :: addJunk n r
/-- Memory after one write of a step. -/
def applyWr (m : Mem) : Wr → Mem
  | .bytes a d => m.puts a d
  | .zero a n => { cells := cellCut a (a + n) m.cells, junk := cutJunk a (a + n) m.junk }
  | .junk a n g =>
    if n = 0 then m else { cells := cellCut a (a + n) m.cells, junk := addJunk ⟨a, a + n, g⟩ (cutJunk a (a + n) m.junk) }
/-- Memory after all writes of a step, the newest first in the list. -/
def applyWrs (m : Mem) : List Wr → Mem
  | [] => m
  | w :: r => applyWr (applyWrs m r) w
/-- The addresses rise strictly and no cell holds 0. -/
def cellsOk : List Host.Cell → Bool
  | [] => true
  | [(_, b)] => b != 0
  | (a, b) :: (a', b') :: r => b != 0 && decide (a < a') && cellsOk ((a', b') :: r)
/-- The ranges with undefined contents rise, and none is empty or overlaps another. -/
def junkOk : List Junk → Bool
  | [] => true
  | [j] => decide (j.lo < j.hi)
  | j :: j' :: r => decide (j.lo < j.hi) && decide (j.hi ≤ j'.lo) && junkOk (j' :: r)
/-- No cell is listed where the contents are undefined. -/
def cellsClear (l : List Host.Cell) (junk : List Junk) : Bool := l.all fun p => junk.all fun j => decide (p.1 < j.lo) || decide (j.hi ≤ p.1)
/-- The canonical form of memory: equal memories are equal data. -/
def Mem.wf (m : Mem) : Bool := cellsOk m.cells && junkOk m.junk && cellsClear m.cells m.junk

/-- The byte that the writes of this step so far give an address. -/
def wrLook : List Wr → Nat → Option Byte
  | [], _ => none
  | .bytes a d :: r, x => if a ≤ x ∧ x < a + d.length then some (d.getD (x - a) 0) else wrLook r x
  | .zero a n :: r, x => if a ≤ x ∧ x < a + n then some 0 else wrLook r x
  | .junk a n g :: r, x => if a ≤ x ∧ x < a + n then some (Config.freeByte g x) else wrLook r x

/-- The byte at an address as the step sees it. -/
def rd (e : Env) (c : Chip) (a : Nat) : Byte := (wrLook c.wr a).getD (e.mem.read a)
/-- `n` bytes from an address. -/
def rdN (e : Env) (c : Chip) (a n : Nat) : List Byte := (List.range n).map fun i => rd e c (a + i)
/-- The package with bytes to be written. -/
def Chip.put (c : Chip) (a : Nat) (d : List Byte) : Chip := if d.isEmpty then c else { c with wr := .bytes a d :: c.wr }
/-- The package with `n` bytes to be made zero. -/
def Chip.zero (c : Chip) (a n : Nat) : Chip := { c with wr := .zero a n :: c.wr }
/-- The package with `n` bytes to become undefined (log 6). -/
def Chip.mess (c : Chip) (a n : Nat) : Chip := { c with wr := .junk a n c.frees :: c.wr, frees := c.frees + 1 }

/-- The state after a step: its writes applied to memory, nothing left to write. -/
def commit (s : State) (c : Chip) : State := { s with mem := applyWrs s.mem c.wr, chip := { c with wr := [] } }
/-- Every meaning ends here: a next state. -/
def run (s : State) (f : Env → Chip → Chip) : Host.Outcome State Fault Refusal :=
  .next (commit s (f ⟨s.mem, s.now⟩ s.chip))

/-! ### Places in memory -/

/-- First byte of a core's scratchpad (R157). -/
def sram (ck off : Nat) : Nat := 2 ^ 44 + ck * 2 ^ 18 + off
/-- First byte of a context's tile register (R263). -/
def tileAt (xk m : Nat) : Nat := 2 ^ 46 + (xk * 8 + m) * 2 ^ 14
/-- Host memory (TGT 1) and the HBM of a peer device (TGT 2) (R166, R170). -/
def extAt (tgt dev a : Nat) : Nat := 2 ^ 50 + (tgt * 16 + dev) * 2 ^ 42 + a

/-! ### Names of contexts, cores, nodes (R62, R336) -/

/-- The core of a context. -/
def coreOf (xk : Nat) : Nat := xk / 8
/-- The number of a context on its core. -/
def ctxNo (xk : Nat) : Nat := xk % 8
/-- The die of a core. -/
def dieOf (ck : Nat) : Nat := ck / 768
/-- The cluster of a core. -/
def clusOf (ck : Nat) : Nat := ck % 768 / 192
/-- The number of a core in its cluster. -/
def coreNo (ck : Nat) : Nat := ck % 192
/-- The node of a core (R62). -/
def coreNode (ck : Nat) : Nat := dieOf ck * 4096 + ck % 768
/-- The node of an L2 slice (R62). -/
def sliceNode (die s : Nat) : Nat := die * 4096 + 0x400 + s
/-- The translation home of a die (R62). -/
def homeNode (die : Nat) : Nat := die * 4096 + 0x801
/-- The dispatcher and queue engine of a die (R62). -/
def dispNode (die : Nat) : Nat := die * 4096 + 0x800
/-- Tantalum (R62). -/
def tanNode : Nat := 0xF00
/-- The bridge, where accesses to host and peer memory leave the package (R170, R286). -/
def bridgeNode : Nat := 0x8F00
/-- Another device of the group, as the destination of a message that leaves the package. -/
def extDevice (g : Nat) : Nat := 2 ^ 16 + g
/-- The die of a node. -/
def nodeDie (n : Nat) : Nat := n / 4096
/-- The endpoint of a node. -/
def nodeEp (n : Nat) : Nat := n % 4096
/-- The node is a logical core. -/
def nodeIsCore (n : Nat) : Bool := nodeEp n < 768 && n < 32768
/-- The core of a node. -/
def nodeCore (n : Nat) : Nat := nodeDie n * 768 + nodeEp n
/-- A context id (R336). -/
def ctxId (group xk : Nat) : Nat :=
  ctxNo xk * 2 ^ 17 + group % 16 * 2 ^ 13 + dieOf (coreOf xk) * 2 ^ 10 + coreOf xk % 768
/-- The core address in the low 17 bits of a context id or mailbox name (R342). -/
def coreAddr (group ck : Nat) : Nat := group % 16 * 2 ^ 13 + dieOf ck * 2 ^ 10 + ck % 768
/-- The core that a core address names on this device. -/
def addrCore (a : Nat) : Nat := bits a 10 3 * 768 + bits a 0 10
/-- The dispatcher that keeps an interface's budget, counters and levels (R51, R102, R443). -/
def viNode (vi : Nat) : Nat := dispNode (vi % 8)

/-! ### Tables of the package -/

/-- The record of a context. -/
def Chip.ctx (c : Chip) (xk : Nat) : Ctx := c.ctxs.get {} xk
/-- The package with a context's record replaced. -/
def Chip.setCtx (c : Chip) (xk : Nat) (x : Ctx) : Chip := { c with ctxs := c.ctxs.put xk x }
/-- The package with a context's record changed. -/
def Chip.modCtx (c : Chip) (xk : Nat) (f : Ctx → Ctx) : Chip := c.setCtx xk (f (c.ctx xk))
/-- The record of a core. -/
def Chip.core (c : Chip) (ck : Nat) : Core := c.cores.get {} ck
/-- The package with a core's record changed. -/
def Chip.modCore (c : Chip) (ck : Nat) (f : Core → Core) : Chip := { c with cores := c.cores.put ck (f (c.core ck)) }
/-- The record of a home. -/
def Chip.home (c : Chip) (n : Nat) : Home := c.homes.get {} n
/-- The package with a home's record changed. -/
def Chip.modHome (c : Chip) (n : Nat) (f : Home → Home) : Chip := { c with homes := c.homes.put n (f (c.home n)) }
/-- The record of a die. -/
def Chip.die (c : Chip) (d : Nat) : Die := c.dies.get {} d
/-- The package with a die's record changed. -/
def Chip.modDie (c : Chip) (d : Nat) (f : Die → Die) : Chip := { c with dies := c.dies.put d (f (c.die d)) }
/-- The record of an interface. -/
def Chip.vi (c : Chip) (v : Nat) : Vi := c.vis.get {} v
/-- The package with an interface's record changed. -/
def Chip.modVi (c : Chip) (v : Nat) (f : Vi → Vi) : Chip := { c with vis := c.vis.put v (f (c.vi v)) }
/-- The package with an interface's counters changed (R444). -/
def Chip.count (c : Chip) (v : Nat) (f : Counters → Counters) : Chip := c.modVi v fun w => { w with ctr := f w.ctr }
/-- The record of a queue. -/
def Chip.queue (c : Chip) (q : Nat) : Queue := c.queues.get {} q
/-- The package with a queue's record changed. -/
def Chip.modQueue (c : Chip) (q : Nat) (f : Queue → Queue) : Chip := { c with queues := c.queues.put q (f (c.queue q)) }
/-- The record of a row. -/
def Chip.row (c : Chip) (r : Nat) : Row := c.rows.get {} r
/-- The package with a row's record changed. -/
def Chip.modRow (c : Chip) (r : Nat) (f : Row → Row) : Chip := { c with rows := c.rows.put r (f (c.row r)) }
/-- The record of a physical core. -/
def Chip.pcore (c : Chip) (p : Nat) : PCore := c.pcores.get {} p
/-- The package with a physical core's record changed. -/
def Chip.modPcore (c : Chip) (p : Nat) (f : PCore → PCore) : Chip := { c with pcores := c.pcores.put p (f (c.pcore p)) }
/-- The record of a fabric port. -/
def Chip.port (c : Chip) (p : Nat) : Port := c.ports.get {} p
/-- The package with a port's record changed. -/
def Chip.modPort (c : Chip) (p : Nat) (f : Port → Port) : Chip := { c with ports := c.ports.put p (f (c.port p)) }
/-- A line of the range [a, a + n) holds an uncorrectable error (R374, log 86). -/
def Chip.badAt (c : Chip) (a n : Nat) : Bool := c.bad.any fun l => decide (a < l * 128 + 128) && decide (l * 128 < a + n)
/-- A serial number that no step has used. -/
def Chip.next (c : Chip) : Chip := { c with serial := c.serial + 1 }

/-- Send a message, or set a timer for `at_` (R62, R65). -/
def Chip.send (c : Chip) (src dst : Nat) (cls : Cls) (ev : Ev) (at_ : Nat := 0) : Chip :=
  { c with net := c.net ++ [⟨src, dst, cls, at_, ev⟩] }
/-- Set a timer: the step `ev` becomes due at `t`. -/
def Chip.timer (c : Chip) (t : Nat) (ev : Ev) : Chip := c.send 0xFFFFF 0xFFFFF .rsp ev t
/-- The retry delay of 256 cycles (R6). -/
def retryTicks : Nat := 256

/-- The physical core of a logical core (R81). -/
def Chip.phys (c : Chip) (ck : Nat) : Nat := dieOf ck * 768 + (c.die (dieOf ck)).cmap.get (ck % 768) (ck % 768)
/-- The row, 0 to 383, of a physical core (R402). -/
def rowOfP (p : Nat) : Nat := p / 16
/-- A swap has frozen the core (R83). -/
def Chip.frozen (c : Chip) (ck : Nat) : Bool :=
  match (c.die (dieOf ck)).swap with
  | some s => s.a == ck % 768 || s.b == ck % 768
  | none => false
/-- Ticks of a core's cycle: its effective divider, or 4 while its row is stretched (R6, R403, R408). -/
def Chip.cycleTicks (c : Chip) (p : Nat) : Nat := if (c.row (rowOfP p)).droop then 4 else (c.pcore p).dcur + 1
/-- Ticks that `n` cycles of a logical core last now (R6). -/
def Chip.coreTicks (c : Chip) (ck n : Nat) : Nat := n * c.cycleTicks (c.phys ck)
/-- Ticks that `n` cycles of the core of a request last; a host's request knows no core (R6). -/
def Chip.reqTicks (c : Chip) (q : Req) (n : Nat) : Nat := if q.host then n else c.coreTicks (coreOf q.src) n
/-- A clock hop of the core is under way: its clock stands still, and it takes no message and changes no context (R406). -/
def Chip.hopping (c : Chip) (ck : Nat) : Bool := (c.pcore (c.phys ck)).hop
/-- The logical core that runs on a physical one (R81). -/
def Chip.logical (c : Chip) (p : Nat) : Nat :=
  let d := p / 768
  d * 768 + (((c.die d).cmap.find? fun q => q.2 == p % 768).elim (p % 768) (·.1))
/-- The core's power switch is open (R405). -/
def Chip.isOff (c : Chip) (ck : Nat) : Bool := (c.pcore (c.phys ck)).off

/-- Scratchpad size of the cores of a die (R160). -/
def Chip.spSize (c : Chip) (ck : Nat) : Nat :=
  match (c.die (dieOf ck)).split with
  | 0 => 0x40000
  | 1 => 0x30000
  | _ => 0x20000

/-! ### Registers of a context (R107) -/

/-- Scalar register: x0 reads zero (R107). -/
def Ctx.getX (x : Ctx) (n : Nat) : W64 := if n = 0 then 0 else x.x.get 0 n
/-- Scalar register: a write to x0 is discarded (R107, R131). -/
def Ctx.setX (x : Ctx) (n : Nat) (v : W64) : Ctx := if n = 0 then x else { x with x := x.x.put n v }
/-- Vector register. -/
def Ctx.getV (x : Ctx) (n : Nat) : VReg := x.v.get 0 n
/-- Vector register written. -/
def Ctx.setV (x : Ctx) (n : Nat) (v : VReg) : Ctx := { x with v := x.v.put n v }
/-- Mask register: k0 reads all ones (R107). -/
def Ctx.getK (x : Ctx) (n : Nat) : W64 := if n = 0 then BitVec.allOnes 64 else x.k.get 0 n
/-- Mask register: a write to k0 is discarded (R107). -/
def Ctx.setK (x : Ctx) (n : Nat) (v : W64) : Ctx := if n = 0 then x else { x with k := x.k.put n v }
/-- STATUS (R126). -/
def Ctx.status (x : Ctx) (xk : Nat) : W64 :=
  w64 (bn (decide (6 ≤ ctxNo xk)) * 32 + bn x.feed * 16 + bn x.pendPfx * 8 + bn x.ppriv * 4 + bn x.priv * 2)
/-- FPFLAGS with more flags set (R227). -/
def Ctx.flag (x : Ctx) (f : BitVec 6) : Ctx := { x with fpflags := x.fpflags ||| f }
/-- The flags of an operation that completes (R227). -/
def Ctx.flagDone (x : Ctx) (f : BitVec 6) : Ctx := { x.flag f with fpNow := x.fpNow ||| f }
/-- A context that a dispatcher or message may start work on. -/
def Ctx.free (x : Ctx) : Bool := x.st == .idle && x.ending.isNone && !x.resv

/-! ### Outstanding operations (R149, R171) -/

/-- The value of an outstanding counter (R149). -/
def Ctx.cnt (x : Ctx) (k : Ctr) : Nat := (x.ops.filter (·.ctr == k)).length
/-- The counter is within a limit; 63, which no counter exceeds, sets none (R150, R151). -/
def Ctx.within (x : Ctx) (k : Ctr) (l : Nat) : Bool := decide (63 ≤ l) || decide (x.cnt k ≤ l)
/-- The context's operations that hold a refusal, and those refused before, in program order (R171). -/
def Ctx.refusedOps (x : Ctx) : List Op := x.replay ++ x.ops.filter (fun o => !o.refused.isEmpty)
/-- Some access of the context has been refused since it last stopped for refusals. -/
def Ctx.hasRefused (x : Ctx) : Bool := x.refusedOps.any fun o => o.refused.any fun r => !r.told
/-- The context has stopped for every refusal so far (R171); an access answered MCHECK or LINKDOWN is not replayed (R375). -/
def Ctx.tellAll (x : Ctx) : Ctx :=
  let keep (r : RPart) : Bool := r.code ≠ 0x10 && r.code ≠ 0x14
  let tell (o : Op) : Op := { o with refused := (o.refused.filter keep).map fun r => { r with told := true } }
  { x with replay := (x.replay.map tell).filter (fun o => !o.refused.isEmpty), ops := x.ops.map tell }
/-- The refused part that is earliest in program order, of those the context has not stopped for (R171). -/
def Ctx.earliest (x : Ctx) : Option RPart :=
  (x.refusedOps.foldl (fun (acc : Option (Nat × RPart)) o =>
    match o.refused.filter (fun r => !r.told) with
    | [] => acc
    | r :: rs =>
      let m := rs.foldl (fun a b => if b.p.id < a.p.id then b else a) r
      match acc with
      | none => some (o.id, m)
      | some (i, p) => if o.id < i then some (o.id, m) else some (i, p)) none).map (·.2)
/-- A destination register that no instruction may read or write yet (R104, R171). -/
def Ctx.lockedX (x : Ctx) (n : Nat) : Bool :=
  n ≠ 0 && (x.ops ++ x.replay).any fun o => match o.dst with | .x d _ _ => d == n | _ => false
/-- The same for a vector register. -/
def Ctx.lockedV (x : Ctx) (n : Nat) : Bool := (x.ops ++ x.replay).any fun o => match o.dst with | .v d => d == n | _ => false
/-- The tile registers an operation reads (R270). -/
def Op.readsM (o : Op) (n : Nat) : Bool :=
  match o.kind with
  | .mst => match o.dst with | .m d => d == n | _ => false
  | .tile m _ => (match m.op with | .zero => false | .add => m.a == n || m.b == n | _ => m.a == n)
  | .mmaEnd m _ => m.args.a == n || m.args.b == n || (m.scale && m.args.s == n)
  | _ => false
/-- The tile registers an operation writes (R270). -/
def Op.writesM (o : Op) (n : Nat) : Bool :=
  match o.kind with
  | .mld => match o.dst with | .m d => d == n | _ => false
  | .tile m _ => m.d == n
  | .mmaEnd m _ => m.args.d == n
  | _ => false
/-- The macro-op in progress reads or writes m`n` until it is done (R270, R280). -/
def Ctx.mopTouches (x : Ctx) (n : Nat) (write : Bool) : Bool :=
  match x.mop with
  | none => false
  | some m => m.args.d == n || (write && (m.args.a == n || m.args.b == n || (m.scale && m.args.s == n)))
/-- An instruction that reads the tile registers `rm` and writes `wm` must wait (R270). -/
def Ctx.tileBlocked (x : Ctx) (rm wm : List Nat) : Bool :=
  (rm ++ wm).any (fun n => (x.ops ++ x.replay).any (fun o => o.writesM n) || x.mopTouches n false) ||
  wm.any (fun n => (x.ops ++ x.replay).any (fun o => o.readsM n) || x.mopTouches n true)

/-- What an instruction uses: scalar and vector registers, tile registers read and written, whether it accesses memory,
and the counter it raises. -/
structure Use where
  x : List Nat := []
  v : List Nat := []
  rm : List Nat := []
  wm : List Nat := []
  mem : Bool := false
  ctr : Ctr := .none
  deriving DecidableEq, Repr

/-- The interlocks of R104, R171 and R270 hold the instruction. -/
def Ctx.blocked (x : Ctx) (u : Use) : Bool :=
  u.x.any x.lockedX || u.v.any x.lockedV || x.tileBlocked u.rm u.wm
/-- An LDACQ holds later memory accesses until its value is written (R309). -/
def Ctx.acquiring (x : Ctx) : Bool := x.ops.any fun o => match o.kind with | .ldacq _ => true | _ => false

/-! ### Line state of a scratchpad (R209) -/

/-- Every line that meets [off, off + n) is full. -/
def Core.fullOver (k : Core) (off n : Nat) : Bool := k.empty.all fun l => l * 128 + 128 ≤ off || off + n ≤ l * 128
/-- The core with every line that meets [off, off + n) full. -/
def Core.setFull (k : Core) (off n : Nat) : Core :=
  { k with empty := k.empty.filter fun l => l * 128 + 128 ≤ off || off + n ≤ l * 128 }
/-- The core with the lines of [off, off + n) empty. -/
def Core.setEmpty (k : Core) (off n : Nat) : Core :=
  { k with empty := (List.range (n / 128)).map (fun i => off / 128 + i) ++
      k.empty.filter fun l => l * 128 + 128 ≤ off || off + n ≤ l * 128 }

/-! ### Taking a trap and returning from one (R371, R372, R396) -/

/-- A context that ends as failed or cancelled stops issuing; CANCEL_COPY then releases what it holds (R372, R440). -/
def Ctx.end_ (x : Ctx) (why : Nat) : Ctx := { x with ending := some (x.ending.getD why) }
/-- The interface is being torn down (R37). -/
def Vi.tearing (v : Vi) : Bool := !v.en && !v.quiesced
/-- The context is to end: it was told to, or its interface is torn down (R37, R372, R440). -/
def Chip.endReason (c : Chip) (xk : Nat) : Option Nat :=
  let x := c.ctx xk
  if x.ending.isSome then x.ending else if x.st != .idle && (c.vi x.vi).tearing then some 2 else none
/-- The failure code TRAPFAIL (R442). -/
def trapFail : Nat := 0x16
/-- What a context is at the issue of its next instruction: a pending prefix becomes live (R124), and a valid stop
shadow is copied back (R388). -/
def Ctx.begin_ (x : Ctx) : Ctx :=
  let y := if x.fromPfx then
      (if x.pendPfx then { x with fromPfx := false, pendPfx := false, fmt := some (BitVec.ofNat 32 x.pfxsave.toNat) }
       else { x with fromPfx := false })
    else x
  match y.shadow, y.ldPC with
  | some s, none => { y with cause := s.cause, epc := s.epc, tval := s.tval, ppriv := s.ppriv, pendPfx := s.pend,
                             pfxsave := s.pfx, shadow := none }
  | _, _ => y
/-- Taking a trap (R371): the saved registers, the mode, and the handler's address. A TRAPVEC of 0 ends the context
as failed (R372). The live prefix goes to PFXSAVE when it belongs to the instruction at EPC (R124). A context that left HALT and has
issued nothing yet gets its stop shadow back first: the shadow is valid only while the context is halted or saved (R388). -/
def Ctx.take (x : Ctx) (recv : Bool) (code : Nat) (epc tval : W64) : Ctx :=
  let x := if x.shadow.isSome && x.ldPC.isNone then x.begin_ else x
  let y := { x with
    cause := w64 (bn recv * 256 + code), epc := w64 (epc.toNat / 4 * 4), tval := tval, ppriv := x.priv, priv := true,
    pendPfx := x.fmt.isSome || x.pendPfx,
    pfxsave := (match x.fmt with | some w => w64 w.toNat | none => x.pfxsave),
    fmt := none, fromPfx := false, wait := .free, pend := {}, commit := none, st := .ready, replaying := false,
    inTrap := true, nest := (if x.inTrap then x.nest + 1 else 0), pc := x.trapvec, stamp := x.stamp + 1 }
  if x.trapvec.toNat = 0 then y.end_ trapFail else y
/-- The context takes a trap. -/
def Chip.trap (c : Chip) (xk : Nat) (recv : Bool) (code : Nat) (epc tval : W64) : Chip :=
  c.modCtx xk fun x => x.take recv code epc tval
/-- The mode and the PC as ERET leaves them (R396); a state that CTXLD loaded is entered (R400). The ERET of a trap taken inside
another trap returns to that trap's handler, and the others resume the context (R147, log 92). -/
def Ctx.ret (x : Ctx) : Ctx :=
  let y := match x.ldPC with
    | none => { x with priv := x.ppriv, pc := x.epc }
    | some _ => { x with priv := x.ldPriv, pc := x.epc, ldPC := none }
  let inner : Bool := if x.ldPC.isSome then x.ldIn && y.priv else x.inTrap && y.priv && decide (0 < x.nest)
  { y with fromPfx := true, fmt := none, wait := .free, pend := {}, st := .ready, inTrap := inner,
           nest := (if x.ldPC.isSome then x.ldNest else if inner then x.nest - 1 else 0), stamp := x.stamp + 1 }

/-- The live prefix is a legal FMT word (R127). -/
def fmtLegal (w : Word) : Bool := match decode w with | some (.fmt ..) => true | _ => false

/-! ### Retiring an instruction (R93, R145, R146, R282) -/

/-- The end check of R145 at `p` for the levels below `n`: the loop registers after it, and the next PC. -/
def Ctx.endCheck (x : Ctx) (p : W64) : Nat → Ctx × W64
  | 0 => (x, p + 4)
  | n + 1 =>
    let cnt := x.lpc.get 0 n
    if cnt ≠ 0 ∧ x.lpe.get 0 n = p then
      if 1 < cnt.toNat then ({ x with lpc := x.lpc.put n (cnt - 1) }, x.lps.get 0 n)
      else Ctx.endCheck { x with lpc := x.lpc.put n 0 } p n
    else x.endCheck p n
/-- No end check between a trap or upcall and the return from it (R147). -/
def Ctx.noLoops (x : Ctx) : Bool := x.inTrap || x.inUpcall
/-- The next PC of an instruction at `p` that does not transfer control (R104, R145). -/
def Ctx.nextPc (x : Ctx) (p : W64) : Ctx × W64 := if x.noLoops then (x, p + 4) else x.endCheck p 4
/-- A taken transfer ends every active level whose body the target leaves (R146). -/
def Ctx.leaveLoops (x : Ctx) (t : W64) : Ctx :=
  if x.noLoops then x else
    (List.range 4).foldl (fun y n =>
      if y.lpc.get 0 n ≠ 0 ∧ (t.toNat < (y.lps.get 0 n).toNat ∨ (y.lpe.get 0 n).toNat < t.toNat)
      then { y with lpc := y.lpc.put n 0 } else y) x
/-- A retired instruction: the count of R93, the prefix consumed, no wait left, SEQSTATE.VALID clear (R282). -/
def Ctx.retired (x : Ctx) (pc : W64) : Ctx :=
  { x with pc := pc, workctr := x.workctr + 1, fmt := none, wait := .free, pend := {}, st := .ready,
           seqValid := false, stamp := x.stamp + 1 }

/-- An instruction that stalls on this answer goes on at the next PC: its end check comes before its request (R145). DONE ends the
context, so the claim of its VOID has none. -/
def PKind.early (k : PKind) : Bool := k != .none && k != .void
/-- How an instruction ends: retired, with a transfer of control, in a trap without effect, with a trap of its own
address, waiting, or with the context left as it stands. -/
inductive Fate where
  | retire (c : Chip)
  | jump (c : Chip) (t : W64)
  | trap (code : Nat) (tval : W64)
  | wait (c : Chip) (w : WaitOn)
  | stay (c : Chip)
  deriving DecidableEq, Repr

/-- The context waits at its instruction (R79). -/
def Chip.stall (c : Chip) (xk : Nat) (w : WaitOn) : Chip := c.modCtx xk fun x => { x with st := .stall, wait := w }
/-- A precise trap of the instruction at the PC (R374). -/
def Chip.trapHere (c : Chip) (xk code : Nat) (tval : W64) : Chip := c.trap xk false code (c.ctx xk).pc tval

/-- Issue of the instruction `i` by the current context: the checks of R111 steps 5 and 6, the interlocks (R104), the
counters' limit (R150), then its effect and its retirement. A misaligned loop return comes before any effect (R145): one that the
whole instruction has is undone, and an instruction that sends a request and stalls on it, or starts a macro-op, traps first. -/
def issue (e : Env) (c0 : Chip) (i : Instr) (u : Use) (body : Env → Chip → Nat → Ctx → Fate) : Chip :=
  let xk := c0.cur
  let x := (c0.ctx xk).begin_
  let c := c0.setCtx xk x
  match x.fmt with
  | some w => if !fmtLegal w then (c.modCtx xk fun y => { y with fmt := none }).trapHere xk 0x01 (w64 w.toNat)
              else if i.privileged && !x.priv then c.trapHere xk 0x02 (w64 (encode i).toNat)
              else if !i.takesPrefix then
                (c.modCtx xk fun y => { y with fmt := none }).trapHere xk 0x04 (w64 w.toNat)
              else go c xk x
  | none => if i.privileged && !x.priv then c.trapHere xk 0x02 (w64 (encode i).toNat) else go c xk x
where
  go (c : Chip) (xk : Nat) (x : Ctx) : Chip :=
    if x.blocked u then c.stall xk (.regs u.x u.v u.rm u.wm)
    else if u.mem && x.acquiring then c.stall xk .ldacq
    else if u.ctr != .none && 63 ≤ x.cnt u.ctr then
      c.stall xk (.ctrs (if u.ctr == .ld then 62 else 63) (if u.ctr == .st then 62 else 63)
        (if u.ctr == .cp then 62 else 63) (if u.ctr == .mx then 62 else 63) (if u.ctr == .msg then 62 else 63))
    else match body e c xk x with
      | .retire c' =>
        let (y, t) := (c'.ctx xk).nextPc x.pc
        if t.toNat % 4 ≠ 0 then c.trapHere xk 0x03 t else c'.setCtx xk (y.retired t)
      | .jump c' t => c'.setCtx xk (((c'.ctx xk).leaveLoops t).retired t)
      | .trap code tval => c.trapHere xk code tval
      | .wait c' w => if (c'.ctx xk).pend.kind.early then early c xk x (c'.stall xk w) else c'.stall xk w
      | .stay c' => if (c'.ctx xk).mop.isSome then early c xk x c' else c'
  early (c : Chip) (xk : Nat) (x : Ctx) (c' : Chip) : Chip :=
    let t := (x.nextPc x.pc).2
    if t.toNat % 4 ≠ 0 then c.trapHere xk 0x03 t else c'

end Sys2Proof.Machine
end

