-- ==== Sys2Proof/Machine/Operands.lean ====
section
/-! DEFINITION. Operand forms: address spaces and the checks at issue (R156 to R159, R162), element types and lanes
(R108, R241), the local path of loads and stores (own window, L1), and the requests that leave a core. -/
namespace Sys2Proof.Machine
open Sys2Proof

/-! ### Addresses (R156 to R158) -/

/-- Address space: 1 scratchpad, 2 global (R156). -/
def space (a : W64) : Nat := bits a.toNat 50 2
/-- R156: bits [63:52] are zero and the space is not reserved. -/
def permOk (a : W64) : Bool := a.toNat < 2 ^ 52 && (space a == 1 || space a == 2)
/-- A global address (R158). -/
def isGlobal (a : W64) : Bool := a.toNat < 2 ^ 52 && space a == 2
/-- The core and offset of a scratchpad range of `n` bytes; none where it breaks R157. -/
def Chip.spParse (c : Chip) (a : W64) (n : Nat) : Option (Nat × Nat) :=
  let v := a.toNat
  let ck := bits v 47 3 * 768 + bits v 45 2 * 192 + bits v 37 8
  let off := bits v 0 18
  if bits v 18 19 = 0 ∧ bits v 37 8 ≤ 191 ∧ off + n ≤ c.spSize ck then some (ck, off) else none
/-- The window address of an offset (R157). -/
def windowAddr (ck off : Nat) : W64 := w64 (2 ^ 50 + dieOf ck * 2 ^ 47 + clusOf ck * 2 ^ 45 + coreNo ck * 2 ^ 37 + off)
/-- The 128-byte line of an address. -/
def lineOf (a : W64) : W64 := w64 (a.toNat / 128 * 128)
/-- The die of the translation home (R163). -/
def hash21 (a : Nat) : Nat := (List.range 10).foldl (fun h i => h ^^^ bits (a % 2 ^ 50) (21 + 3 * i) 3) 0
/-- The node of the translation home of a global address (R163). -/
def transNode (a : W64) : Nat := homeNode (hash21 a.toNat)

/-! ### Local protection (R162, R344, R391) -/

/-- The ranges without [lo, hi). -/
def cutRange (lo hi : Nat) : List (Nat × Nat) → List (Nat × Nat)
  | [] => []
  | (a, b) :: r =>
    (if b ≤ lo ∨ hi ≤ a then [(a, b)]
     else (if a < lo then [(a, lo)] else []) ++ (if hi < b then [(hi, b)] else [])) ++ cutRange lo hi r
/-- Payload bytes of a message (R342). -/
def msgSize (s : Nat) : Nat := 16 * 2 ^ s
/-- Bytes of a mailbox's ring (R344). -/
def Mbox.ringLen (m : Mbox) : Nat := (m.depthm1 + 1) * msgSize m.size
/-- The two actor areas of a bound mailbox (R344). -/
def Mbox.areas (m : Mbox) : List (Nat × Nat) :=
  if m.area then [(m.ring, m.ring + m.ringLen), (m.st, m.st + m.stlen)] else []
/-- The part of a mailbox's areas that a run on it may access: its current slot and its state area (R344). -/
def Mbox.runAreas (m : Mbox) : List (Nat × Nat) :=
  [(m.ring + m.headSlot * msgSize m.size, m.ring + (m.headSlot + 1) * msgSize m.size), (m.st, m.st + m.stlen)]
/-- The entry is suspended: its creator or its holder is saved (R391). -/
def Buf.suspended (b : Buf) : Bool := b.creatorS.isSome || b.holderS.isSome
/-- The ranges meet. -/
def meets (a b c d : Nat) : Bool := a < d && c < b

/-- [lo, hi) lies in the context's run: the bytes that its work gave to actor areas have left it (R162, R344). -/
def Ctx.ownsRun (x : Ctx) (lo hi : Nat) : Bool :=
  x.runBase ≤ lo && hi ≤ x.runBase + x.runLen && !x.left.any fun r => meets lo hi r.1 r.2
/-- Some byte of [off, off + n) lies in the context's run (R78, R344). -/
def Ctx.ownsPart (x : Ctx) (off n : Nat) : Bool :=
  (x.left.foldl (fun l r => cutRange r.1 r.2 l) [(x.runBase, x.runBase + x.runLen)]).any fun r => meets off (off + n) r.1 r.2
/-- Local protection of [off, off + n) of the context's own window: none where allowed, or the trap code (R162). -/
def Chip.protect (c : Chip) (xk : Nat) (off n : Nat) : Option Nat :=
  let x := c.ctx xk
  let k := c.core (coreOf xk)
  let bufs := (k.bufs.map (·.2)).filter fun b => b.valid && meets off (off + n) b.base (b.base + b.len)
  let areas := ((k.mbs.map (·.2)).flatMap Mbox.areas).filter fun r => meets off (off + n) r.1 r.2
  let mine := match x.mbox with | some m => (k.mbs.get ({} : Mbox) m).runAreas | none => []
  if bufs.any (fun b => b.suspended) then some 7
  else if bufs.any (fun b => b.holder ≠ xk) then some 6
  else if bufs.any (fun b => b.vi ≠ x.vi) then some 7
  else
    let rest := bufs.foldl (fun r b => cutRange b.base (b.base + b.len) r) [(off, off + n)]
    let rest := mine.foldl (fun r m => cutRange m.1 m.2 r) rest
    if rest.any (fun r => areas.any fun a => meets r.1 r.2 a.1 a.2) then some 6
    else if rest.all (fun r => r.1 ≥ r.2 || x.ownsRun r.1 r.2) then none
    else some 6

/-- The checks at issue of an access to [a, a + n) aligned to `al`: none where they pass, or the trap code (R159). -/
def Chip.check (c : Chip) (xk : Nat) (a : W64) (n al : Nat) : Option Nat :=
  if !permOk a then some 0x09
  else if a.toNat % al ≠ 0 then some 0x05
  else if !permOk (a + w64 (n - 1)) || space (a + w64 (n - 1)) ≠ space a then some 0x09
  else if space a = 1 then
    match c.spParse a n with
    | none => some 0x06
    | some (ck, off) => if ck = coreOf xk then c.protect xk off n else none
  else none
/-- The range lies in the own window (R157). -/
def Chip.ownOff (c : Chip) (xk : Nat) (a : W64) (n : Nat) : Option Nat :=
  if permOk a && space a = 1 then
    match c.spParse a n with
    | some (ck, off) => if ck = coreOf xk then some off else none
    | none => none
  else none
/-- The range lies wholly in the context's scratchpad run (R78, R183). -/
def Chip.inRun (c : Chip) (xk : Nat) (a : W64) (n : Nat) : Bool :=
  match c.ownOff xk a n with
  | some off => (c.ctx xk).ownsRun off (off + n)
  | none => false
/-- Remote protection at the target core: allowed, or the trap code (R180, R391). -/
def Chip.remoteProtect (c : Chip) (ck : Nat) (off n xk vi : Nat) : Option Nat :=
  if c.isOff ck then some 6
  else if c.spSize ck < off + n then some 6
  else match ((c.core ck).bufs.map (·.2)).find? (fun b => b.valid && b.base ≤ off && off + n ≤ b.base + b.len) with
    | none => some 6
    | some b => if b.suspended || b.holder ≠ xk || b.vi ≠ vi then some 7 else none
/-- The lock of a line that a range meets has been lost by this context (R331). -/
def Ctx.lostOver (x : Ctx) (a : W64) (n : Nat) : Option Held :=
  x.held.find? fun h => h.lost && meets a.toNat (a.toNat + n) h.line.toNat (h.line.toNat + 128)
/-- LKLOST is taken and the entry freed (R331). -/
def Chip.takeLost (c : Chip) (xk : Nat) (h : Held) (tval : W64) : Fate :=
  .stay ((c.modCtx xk fun x => { x with held := x.held.filter (·.eid ≠ h.eid) }).trapHere xk 0x0B tval)

/-! ### Element types and lanes (R108, R241) -/

/-- Bits of an element of a type. -/
def tyW (t : Nat) : Nat :=
  match t with
  | 0 | 8 | 12 => 32
  | 1 | 9 | 13 => 64
  | 2 | 3 | 7 | 11 => 16
  | _ => 8
/-- The type is a float. -/
def tyIsFloat (t : Nat) : Bool := t ≤ 5
/-- The type is a signed integer. -/
def tyIsSInt (t : Nat) : Bool := 6 ≤ t && t ≤ 9
/-- Lanes of a vector register. -/
def lanes (t : Nat) : Nat := 512 / tyW t
/-- Lane `i` of a register. -/
def lane (v : VReg) (w i : Nat) : Nat := v.toNat / 2 ^ (w * i) % 2 ^ w
/-- A register from its lanes, lane 0 first. -/
def ofLanes (w : Nat) : List Nat → Nat
  | [] => 0
  | x :: r => x % 2 ^ w + 2 ^ w * ofLanes w r
/-- A vector register from its lanes. -/
def vecOf (w : Nat) (l : List Nat) : VReg := BitVec.ofNat 512 (ofLanes w l)
/-- The bytes of a vector register. -/
def vecBytes (v : VReg) : List Byte := leBytes 64 v.toNat
/-- Lane `i` is active (R242). -/
def active (k : W64) (i : Nat) : Bool := k.getLsbD i

/-! ### The L1 (R161, R172, R175, R326) -/

/-- The line that may serve a read of a context, at its GTIME. -/
def Core.l1Find (k : Core) (xk vi now : Nat) (a : W64) : Option L1Line :=
  k.l1.find? fun l => l.vi == vi && l.va == lineOf a &&
    (match l.kind with
     | .leased t => decide (now < t) && !(k.l1.any fun m => m.vi == vi && m.va == lineOf a &&
         (match m.kind with | .locked y => y == xk | _ => false))
     | .owned _ => bit l.perm 0
     | .locked y => y == xk)
/-- The bytes of a line from an address. -/
def L1Line.get (l : L1Line) (a : W64) (n : Nat) : List Byte := (l.data.drop (a.toNat % 128)).take n
/-- Bytes with `d` in place from offset `o`. -/
def splice (l : List Byte) (o : Nat) (d : List Byte) : List Byte := l.take o ++ d ++ l.drop (o + d.length)
/-- The line with bytes written. -/
def L1Line.put (l : L1Line) (a : W64) (d : List Byte) : L1Line := { l with data := splice l.data (a.toNat % 128) d }

/-! ### Requests (R62, R64, R163) -/

/-- The class a request travels in (R64). -/
def actCls : Act → Cls
  | .store | .strel .. | .mkfull _ | .mkempty _ | .cpwrite .. => .wrb
  | .atomic .. | .lock .. | .lkq | .watch .. => .amo
  | .rwi _ => .msg
  | .claim .. | .gclaim .. | .sgrant .. | .publish .. | .stream .. | .unpin _| .unclaim .. => .cmt
  | _ => .req
/-- The step that performs a request at its home. -/
def evOf (q : Req) : Ev :=
  match q.act with
  | .store | .strel .. | .mkfull _ | .mkempty _ | .cpwrite .. => .storeRequest q
  | .atomic .. => .atomicRequest q
  | .lock .. => .lockRequest q
  | .lkq => .lkqRequest q
  | .watch .. => .watchRequest q
  | .rwi _ => .rwiArrival q
  | .hgive _ | .hrev | .hchk => .handleUpdate q
  | .rpin _ | .pin .. => .pinRequest q
  | .claim .. => .claimRequest q
  | .gclaim .. => .groupClaim q
  | .sgrant .. => .claimRequest q
  | .publish .. => .publish q
  | .stream .. => .streamLine q false
  | .unpin _ | .unclaim .. => .claimRelease q
  | _ => .loadRequest q
/-- The request is an engine's: a copy's, or a line of a commit stream. No instruction made it, and no L1 serves it (R168, R173, R202). -/
def Act.engine (a : Act) : Bool := match a with | .cpread _ | .cpwrite .. | .stream .. => true | _ => false
/-- The peer device that a redirected operand of a copy goes to (R197). -/
def Act.dev (a : Act) : Option Nat := match a with | .cpread d | .cpwrite d _ => d | _ => none
/-- The peer device that a request from outside comes from, none for a host: 2^25 times one more than the device marks its context
(R287, log 13). -/
def reqPeer (q : Req) : Option Nat := if q.host ∧ 2 ^ 25 ≤ q.src then some (q.src / 2 ^ 25 - 1) else none
/-- An answer to a request from outside leaves for the host or for the peer device. -/
def Chip.sendExt (c : Chip) (q : Req) (ev : Ev) : Chip := { c with outbox := c.outbox ++ [((reqPeer q).elim bridgeNode extDevice, ev)] }
/-- The node that answers a request of a context go to: its core, or the bridge for a host or a peer. -/
def reqCore (q : Req) : Nat := if q.host then bridgeNode else coreNode (coreOf q.src)
/-- The node a request comes from (R287): the core of its context, or the bridge for a host or a peer; a pin and a claim's release come
from the dispatcher of the copy's die (R29, R440), and the claim of a secondary tile from the primary tile's home (R439). -/
def reqFrom (q : Req) : Nat :=
  match q.act with
  | .pin .. | .unclaim .. => if q.host then bridgeNode else dispNode (dieOf (coreOf q.src))
  | .gclaim _ _ _ _ _ _ by_ => by_
  | _ => reqCore q
/-- Send a request to the home that translates or owns its address. -/
def Chip.request (c : Chip) (q : Req) (at_ : Nat := 0) : Chip :=
  if space q.va = 1 then
    match c.spParse q.va 1 with
    | some (ck, off) =>
      let q := { q with pa := sram ck off, home := coreNode ck }
      c.send (reqFrom q) (coreNode ck) (actCls q.act) (evOf q) at_
    | none => c
  else c.send (reqFrom q) (transNode q.va) (actCls q.act) (.translate q) at_

/-- The context with one more outstanding operation. -/
def Chip.addOp (c : Chip) (xk : Nat) (o : Op) : Chip := c.modCtx xk fun x => { x with ops := x.ops ++ [o] }
/-- Write data into the destination of an operation, at its byte offset. -/
def Chip.deliver (c : Chip) (xk : Nat) (d : Dst) (off : Nat) (data : List Byte) : Chip :=
  match d with
  | .none => c
  | .x r n sx => c.modCtx xk fun x => x.setX r (if sx then sxt (8 * n) (leNat data) else w64 (leNat data % 2 ^ (8 * n)))
  | .v r => c.modCtx xk fun x => x.setV r (BitVec.ofNat 512 (leNat (splice (vecBytes (x.getV r)) off data)))
  | .m r => c.put (tileAt xk r + off) data
/-- The operation has left its counter once no part is out; refused parts stay in the refused set (R149, R171). -/
def Ctx.settle (x : Ctx) (id : Nat) : Ctx :=
  match x.ops.find? (fun o => o.id == id && o.parts.isEmpty) with
  | none => x
  | some o =>
    { x with ops := x.ops.filter (fun p => !(p.id == id && p.parts.isEmpty)), vismax := max x.vismax o.vt,
             replay := if o.refused.isEmpty then x.replay else
               (x.replay.filter (·.id ≤ id)) ++ [o] ++ (x.replay.filter (fun p => id < p.id)) }
/-- The part is out. -/
def Ctx.partOut (x : Ctx) (id part : Nat) : Bool := x.ops.any fun o => o.id == id && o.parts.any (·.id == part)
/-- The part leaves its operation, whose latest time becomes at least `vt`. -/
def Ctx.dropPart (x : Ctx) (id part vt : Nat) : Ctx :=
  { x with ops := updFirst (fun o => o.id == id && o.parts.any (·.id == part))
             (fun o => { o with parts := o.parts.filter (·.id ≠ part), vt := max o.vt vt }) x.ops }
/-- The part has been refused (R171). -/
def Ctx.refusePart (x : Ctx) (id part code token : Nat) : Ctx :=
  { x with ops := updFirst (fun o => o.id == id && o.parts.any (·.id == part)) (fun o =>
      match o.parts.find? (·.id == part) with
      | some p => { o with parts := o.parts.filter (·.id ≠ part), refused := o.refused ++ [⟨p, code, token, false⟩] }
      | none => o) x.ops }

/-- The copy of an operation of a core changed. -/
def Chip.modCopy (c : Chip) (ck op : Nat) (f : CopyE → CopyE) : Chip := c.modCore ck fun k => { k with copies := updFirst (·.op == op) f k.copies }
/-- The core's node for home state of its scratchpad. -/
def ownNode (xk : Nat) : Nat := coreNode (coreOf xk)

/-! ### Waking WADDRs (R216) -/

/-- A reply to a stalled instruction (R460): its value and time. -/
def Chip.answer (c : Chip) (xk id : Nat) (a : PAns) : Chip :=
  c.modCtx xk fun x => if x.pend.id = id ∧ id ≠ 0 ∧ x.pend.ans.isNone then { x with pend := { x.pend with ans := some a } } else x
/-- A waiting WADDR of the context is abandoned: it executes again from its own PC (R216, R390). -/
def Chip.dropWaddr (c : Chip) (xk : Nat) : Chip :=
  if (c.ctx xk).pend.kind ≠ .waddr then c
  else
    let id := (c.ctx xk).pend.id
    { c.modCtx xk (fun x => { x with pend := {} }) with homes := c.homes.map fun h => (h.1, { h.2 with waddrs := h.2.waddrs.filter fun q => q.part ≠ id || q.host }) }
/-- After a write to a line at a place, the WADDRs waiting there whose word now differs are answered. -/
def Chip.wake (e : Env) (c : Chip) (node a n : Nat) : Chip :=
  let h := c.home node
  let hit (q : Req) : Bool := meets a (a + n) (q.pa / 128 * 128) (q.pa / 128 * 128 + 128) &&
    (match q.act with | .waddr v => w64 (leNat (rdN e c q.pa 8)) != v | _ => false)
  let go := h.waddrs.filter hit
  if go.isEmpty then c else
    go.foldl (fun c q => c.send node (reqFrom q) .rsp (.loadReply q [] [] 0))
      (c.modHome node fun h => { h with waddrs := h.waddrs.filter (fun q => !hit q) })
/-- The WADDRs that wait at an owner on a line of its L1 and meet `p` go to the line's home (R173, R216). -/
def Chip.sendWaddrs (c : Chip) (ck : Nat) (p : Req → Bool) : Chip :=
  let ws := (c.home (coreNode ck)).waddrs.filter fun q => space q.va == 2 && p q
  ws.foldl (fun c q => c.request { q with refill := false, stale := false, home := 0, pa := 0 })
    (c.modHome (coreNode ck) fun h => { h with waddrs := h.waddrs.filter fun q => !(ws.any (·.part == q.part)) })
/-- After a change of a line that a core owns, the WADDRs that wait there whose word now differs are answered (R216). -/
def Chip.wakeOwner (c : Chip) (now ck vi : Nat) (va : W64) : Chip :=
  match (c.core ck).l1.find? (fun l => l.vi == vi && l.va == lineOf va && (match l.kind with | .owned _ => true | _ => false)) with
  | none => c
  | some l =>
    let hit (q : Req) : Bool := q.vi == vi && lineOf q.va == l.va && (match q.act with | .waddr v => w64 (leNat (l.get q.va 8)) != v | _ => false)
    ((c.home (coreNode ck)).waddrs.filter hit).foldl (fun c q => c.answer q.src q.part (.value 0 now))
      (c.modHome (coreNode ck) fun h => { h with waddrs := h.waddrs.filter fun q => !hit q })
/-- A write of the core to its own scratchpad. -/
def Chip.putSp (e : Env) (c : Chip) (ck off : Nat) (d : List Byte) : Chip :=
  (c.put (sram ck off) d).wake e (coreNode ck) (sram ck off) d.length

/-! ### Loads and stores on their way out (R172, R175, R176, R182 to R184) -/

/-- A byte range that a load reads: offset in the destination, address, length. -/
abbrev Piece := Nat × W64 × Nat
/-- The data of a piece that the core itself serves: own window, or, while translation is enabled, a line of its L1 (R164). Own-window
data with an uncorrectable error are asked for and refused like a remote window's (R374). -/
def Chip.local_ (e : Env) (c : Chip) (xk : Nat) (a : W64) (n : Nat) : Option (List Byte) :=
  match c.ownOff xk a n with
  | some off => if c.badAt (sram (coreOf xk) off) n then none else some (rdN e c (sram (coreOf xk) off) n)
  | none => if space a = 2 ∧ (c.vi (c.ctx xk).vi).pten then ((c.core (coreOf xk)).l1Find xk (c.ctx xk).vi e.now a).map (·.get a n) else none
/-- The range lies in another core's window. -/
def Chip.remote (c : Chip) (xk : Nat) (a : W64) : Bool := space a == 1 && (c.ownOff xk a 1).isNone
/-- A load's pieces: those served locally are delivered, the others become requests of one operation (R149, R171). Where some of
its lines are another core's, all of its scratchpad lines are read by requests, so that it is performed whole (R210). -/
def Chip.loadPieces (e : Env) (c : Chip) (xk : Nat) (kind : OpKind) (ctr : Ctr) (dst : Dst) (act : Act) (cached : Bool)
    (ps : List Piece) : Chip :=
  let vi := (c.ctx xk).vi
  let id := c.serial
  let away := ps.any fun p => c.remote xk p.2.1
  let (c, parts) := ps.foldl (fun (acc : Chip × List Part) p =>
    let (c, l) := acc
    match (if cached && !(away && space p.2.1 == 1) then c.local_ e xk p.2.1 p.2.2 else none) with
    | some d => (c.deliver xk dst p.1 d, l)
    | none =>
      let q : Req := { src := xk, op := id, part := c.serial + 1, vi := vi, act := act, va := p.2.1, n := p.2.2, cached := cached }
      (c.next, l ++ [⟨c.serial + 1, p.1, q⟩])) (c, [])
  if parts.isEmpty then c else
    let c := c.next.addOp xk { id := id, kind := kind, ctr := ctr, dst := dst, parts := parts }
    parts.foldl (fun c p => c.request p.q) c
/-- The changes of a word with one more: of each writer the one that is visible first is kept (R106, log 7). -/
def addChange (by_ t : Nat) (l : List (Nat × Nat)) : List (Nat × Nat) :=
  if l.any fun p => p.1 == by_ && decide (p.2 ≤ t) then l else (by_, t) :: l.filter (·.1 ≠ by_)
/-- The bytes [pa, pa + n) have been changed by a writer, visibly from `t` on (R106). -/
def Chip.noteWrite (c : Chip) (by_ t pa n : Nat) : Chip :=
  { c with wrote := (List.range ((pa % 4 + n + 3) / 4)).foldl (fun w i => w.put (pa / 4 + i) (addChange by_ t (w.get [] (pa / 4 + i)))) c.wrote }
/-- A store's pieces: own window and owned lines are written at once, and the others become requests (R172, R176).
Without an active lane nothing is stored and VISMAX stays (R259). -/
def Chip.storePieces (e : Env) (c : Chip) (xk : Nat) (kind : OpKind) (dst : Dst) (act : Act)
    (ps : List (W64 × List Byte)) : Chip :=
  let vi := (c.ctx xk).vi
  let ck := coreOf xk
  let id := c.serial
  let (c, parts) := ps.foldl (fun (acc : Chip × List Part) p =>
    let (c, l) := acc
    match c.ownOff xk p.1 p.2.length with
    | some off => (c.putSp e ck off p.2, l)
    | none =>
      let mine (m : L1Line) : Bool := m.vi == vi && m.va == lineOf p.1 && bit m.perm 1
      if (c.vi vi).pten && act == .store && ((c.core ck).l1.any fun m => mine m && (match m.kind with | .owned _ => true | _ => false)) then
        let c := c.modCore ck fun k => { k with l1 := updAll mine (fun m => { m.put p.1 p.2 with kind := .owned true }) k.l1 }
        let pa := ((c.core ck).l1.find? mine).elim 0 (·.pa) + p.1.toNat % 128
        ((c.noteWrite ck e.now pa p.2.length).wakeOwner e.now ck vi p.1, l)
      else
        let q : Req := { src := xk, op := id, part := c.serial + 1, vi := vi, act := act, va := p.1, n := p.2.length, data := p.2,
                         cached := act == .store }
        (c.next, l ++ [⟨c.serial + 1, 0, q⟩])) (c, [])
  if ps.isEmpty then c
  else if parts.isEmpty then
    let c := c.modCtx xk fun x => { x with vismax := max x.vismax e.now }
    match dst with | .x .. => c.deliver xk dst 0 (leBytes 8 e.now) | _ => c
  else
    let c := c.next.addOp xk { id := id, kind := kind, ctr := .st, dst := dst, parts := parts, vt := if parts.length < ps.length then e.now else 0 }
    parts.foldl (fun c p => c.request p.q) c
/-- An access of the context that is still out overlaps the range: R184 and R289 hold the new access back. -/
def Ctx.placeBusy (x : Ctx) (a : W64) (n : Nat) : Bool :=
  x.ops.any fun o => o.kind != .ask && o.parts.any fun p => meets a.toNat (a.toNat + n) p.q.va.toNat (p.q.va.toNat + p.q.n)

/-- The request has been answered (R306, R324). -/
def Chip.amoDone (c : Chip) (ck part : Nat) : Chip :=
  let other (f : Flight) : Bool := match f.ev with | .atomicResend q => q.part != part | _ => true
  { c.modCore ck fun k => { k with amoOut := k.amoOut.filter fun p => p.2.part ≠ part } with net := c.net.filter other }

/-! ### Sealing (R432, R436) -/

/-- The copy belongs to a hedged unit and holds no seal. -/
def Ctx.unsealed (x : Ctx) : Bool := match x.unit with | some u => u.hedged && !u.sealed | none => false
/-- The claim request of the context's copy (R432). -/
def Chip.claimReq (c : Chip) (xk : Nat) (kind : ClaimKind) (part : Nat) : Req :=
  let x := c.ctx xk
  match x.unit with
  | some u => { src := xk, part := part, vi := x.vi, act := .claim kind u.u u.tx u.ty u.tz u.expv, va := u.head, n := 128 }
  | none => {}
/-- Send a claim and stall until its answer (R436); a result header that does not lie in global space is BADHDR (R22, R26). -/
def Chip.sendClaim (c : Chip) (xk : Nat) (kind : ClaimKind) (pk : PKind) : Fate :=
  let id := c.serial
  let c := c.next.modCtx xk fun x => { x with pend := { kind := pk, id := id } }
  let q := c.claimReq xk kind id
  .wait (if isGlobal q.va then c.request q else c.send (ownNode xk) (ownNode xk) .rsp (.claimAnswer q .badhdr)) .answer
/-- An irrevocable act: `k` when the copy need not seal or has sealed, else the claim is sent and the context stalls. -/
def Chip.sealed (c : Chip) (xk : Nat) (k : Fate) : Fate :=
  let x := c.ctx xk
  if x.unsealed then (if x.pend.kind = .seal then .wait c .answer else c.sendClaim xk .seal .seal) else k

end Sys2Proof.Machine
end

