-- ==== Sys2Proof/Machine/Flags.lean ====
section
/-! DEFINITION. Numbers: the floating-point formats, rounding, and every computation of the sticky flags (R217 to
R227, R235 to R239). A float is unpacked to an exact value; operations are exact, and one rounding packs the result. -/
namespace Sys2Proof.Machine
open Sys2Proof

/-! ### The flags of FPFLAGS (R225) -/

/-- NX. -/
def fNX : BitVec 6 := 1
/-- UF. -/
def fUF : BitVec 6 := 2
/-- OF. -/
def fOF : BitVec 6 := 4
/-- DZ. -/
def fDZ : BitVec 6 := 8
/-- NV. -/
def fNV : BitVec 6 := 16
/-- SAT. -/
def fSAT : BitVec 6 := 32
/-- A flag when a condition holds. -/
def fIf (b : Bool) (f : BitVec 6) : BitVec 6 := if b then f else 0

/-! ### The formats (R217 to R219) -/

/-- Fraction bits of a floating-point type. -/
def fracBits (t : Nat) : Nat :=
  match t with
  | 0 => 23
  | 1 => 52
  | 2 => 7
  | 3 => 10
  | 4 => 3
  | _ => 2
/-- Bias of a floating-point type. -/
def fpBias (t : Nat) : Nat :=
  match t with
  | 0 | 2 => 127
  | 1 => 1023
  | 3 | 5 => 15
  | _ => 7
/-- Exponent bits. -/
def expBits (t : Nat) : Nat := tyW t - 1 - fracBits t
/-- The canonical NaN (R219). -/
def canonNaN (t : Nat) : Nat := if t = 4 then 0x7F else (2 ^ (expBits t + 1) - 1) * 2 ^ (fracBits t - 1)
/-- The largest exponent of a finite value. -/
def emax (t : Nat) : Int := if t = 4 then 8 else fpBias t
/-- The encoding of the largest finite magnitude (R217). -/
def maxFinite (t : Nat) : Nat := if t = 4 then 0x7E else (2 ^ expBits t - 1) * 2 ^ fracBits t - 1
/-- The encoding of infinity. -/
def infBits (t : Nat) : Nat := (2 ^ expBits t - 1) * 2 ^ fracBits t
/-- A magnitude with its sign. -/
def withSign (t : Nat) (s : Bool) (m : Nat) : Nat := m + bn s * 2 ^ (tyW t - 1)

/-- An exact value: a NaN and whether it signals, an infinity, or ±m·2^e. -/
inductive FVal where
  | nan (sig : Bool)
  | inf (s : Bool)
  | num (s : Bool) (m : Nat) (e : Int)
  deriving DecidableEq, Repr

/-- The value of an encoding (R218, R219). -/
def unpack (t v : Nat) : FVal :=
  let f := fracBits t
  let s := bit v (tyW t - 1)
  let ex := bits v f (expBits t)
  let fr := bits v 0 f
  if t = 4 then
    (if v % 128 = 127 then .nan false
     else if ex = 0 then .num s fr (1 - 7 - 3) else .num s (8 + fr) ((ex : Int) - 7 - 3))
  else if ex = 2 ^ expBits t - 1 then
    (if fr = 0 then .inf s else .nan (t ≠ 5 && !bit v (f - 1)))
  else if ex = 0 then .num s fr (1 - (fpBias t : Int) - f)
  else .num s (2 ^ f + fr) ((ex : Int) - fpBias t - f)

/-! ### Rounding (R222 to R224) -/

/-- ±m·2^e as a multiple of 2^q, rounded by a code of R222, and whether it was inexact. -/
def roundTo (s : Bool) (m : Nat) (e q : Int) (rnd : Nat) : Nat × Bool :=
  if q ≤ e then (m * 2 ^ (e - q).toNat, false)
  else
    let k := (q - e).toNat
    let lo := m / 2 ^ k
    let r := m % 2 ^ k
    if r = 0 then (lo, false)
    else
      let up := match rnd with
        | 0 => decide (2 ^ k < 2 * r) || (2 * r == 2 ^ k && lo % 2 == 1)
        | 1 => false
        | 2 => s
        | _ => !s
      (lo + bn up, true)
/-- The result of an overflow (R223). -/
def overflow (t : Nat) (s : Bool) (rnd : Nat) (sat : Bool) : Nat × BitVec 6 :=
  let huge := rnd = 0 ∨ (rnd = 2 ∧ s) ∨ (rnd = 3 ∧ !s)
  if huge then
    (if sat then (withSign t s (maxFinite t), fOF ||| fNX ||| fSAT)
     else if t = 4 then (canonNaN t, fOF ||| fNX) else (withSign t s (infBits t), fOF ||| fNX))
  else (withSign t s (maxFinite t), fOF ||| fNX)
/-- ±m·2^e rounded to `p` fraction bits within the exponent range of type `t`, and to its subnormal spacing below its smallest normal:
the encoding and the flags (R222 to R224, R254). -/
def roundPrec (t p : Nat) (s : Bool) (m : Nat) (e : Int) (rnd : Nat) (sat : Bool) : Nat × BitVec 6 :=
  if m = 0 then (withSign t s 0, 0)
  else
    let f := fracBits t
    let low : Int := 1 - (fpBias t : Int)
    let qn := (Nat.log2 m : Int) + e - p
    let q := if (Nat.log2 m : Int) + e < low then low - f else qn
    let (r, inexact) := roundTo s m e q rnd
    let (r0, _) := roundTo s m e qn rnd
    let tiny := decide ((Nat.log2 r0 : Int) + qn < low)
    let lg := Nat.log2 r
    let top := (lg : Int) + q
    if r ≠ 0 ∧ (emax t < top ∨ (t = 4 ∧ top = 8 ∧ r / 2 ^ (lg - 3) = 15)) then overflow t s rnd sat
    else
      let enc := if r = 0 then 0
        else if top < low then r * 2 ^ (q - (low - f)).toNat
        else (top + fpBias t).toNat * 2 ^ f + (if lg ≤ f then r * 2 ^ (f - lg) else r / 2 ^ (lg - f)) - 2 ^ f
      (withSign t s enc, fIf inexact fNX ||| fIf (tiny && inexact) fUF)
/-- Round(t, ±m·2^e, rnd, sat) (R222 to R224). -/
def roundNum (t : Nat) (s : Bool) (m : Nat) (e : Int) (rnd : Nat) (sat : Bool) : Nat × BitVec 6 := roundPrec t (fracBits t) s m e rnd sat
/-- Round an exact value into a format; infinities into FP8E4M3 are those of R238. -/
def pack (t : Nat) (v : FVal) (rnd : Nat) (sat : Bool) : Nat × BitVec 6 :=
  match v with
  | .nan _ => (canonNaN t, 0)
  | .inf s => if t = 4 then (if sat then (withSign t s (maxFinite t), fSAT) else (canonNaN t, fNV)) else (withSign t s (infBits t), 0)
  | .num s m e => roundNum t s m e rnd sat

/-! ### Exact operations (R235) -/

/-- The value signals (R219). -/
def FVal.sig : FVal → Bool
  | .nan b => b
  | _ => false
/-- The value is a NaN. -/
def FVal.isNaN : FVal → Bool
  | .nan _ => true
  | _ => false
/-- The sign of a value. -/
def FVal.sign : FVal → Bool
  | .nan _ => false
  | .inf s => s
  | .num s _ _ => s
/-- The value with the other sign. -/
def FVal.neg : FVal → FVal
  | .nan b => .nan b
  | .inf s => .inf !s
  | .num s m e => .num (!s) m e
/-- The value is a zero. -/
def FVal.isZero : FVal → Bool
  | .num _ m _ => m == 0
  | _ => false
/-- ±m as an integer. -/
def sgnInt (s : Bool) (m : Nat) : Int := if s then -(m : Int) else m
/-- Exact product. -/
def FVal.mul (u v : FVal) : FVal × BitVec 6 :=
  match u, v with
  | .nan a, w => (.nan false, fIf (a || w.sig) fNV)
  | w, .nan a => (.nan false, fIf (a || w.sig) fNV)
  | .inf a, w => if w.isZero then (.nan false, fNV) else (.inf (a ^^ w.sign), 0)
  | w, .inf a => if w.isZero then (.nan false, fNV) else (.inf (a ^^ w.sign), 0)
  | .num s m e, .num s' m' e' => (.num (s ^^ s') (m * m') (e + e'), 0)
/-- Exact sum; an exact zero of unlike signs is −0 only when rounding down (IEEE 754-2019). -/
def FVal.add (rnd : Nat) (u v : FVal) : FVal × BitVec 6 :=
  match u, v with
  | .nan a, w => (.nan false, fIf (a || w.sig) fNV)
  | w, .nan a => (.nan false, fIf (a || w.sig) fNV)
  | .inf a, .inf b => if a = b then (.inf a, 0) else (.nan false, fNV)
  | .inf a, _ => (.inf a, 0)
  | _, .inf a => (.inf a, 0)
  | .num s m e, .num s' m' e' =>
    let q := min e e'
    let i := sgnInt s (m * 2 ^ (e - q).toNat) + sgnInt s' (m' * 2 ^ (e' - q).toNat)
    if i = 0 then (.num (if s = s' ∧ m = 0 ∧ m' = 0 then s else rnd == 2) 0 0, 0)
    else (.num (decide (i < 0)) i.natAbs q, 0)
/-- Exact quotient to more bits than any format holds, with a sticky last bit. -/
def FVal.div (u v : FVal) : FVal × BitVec 6 :=
  match u, v with
  | .nan a, w => (.nan false, fIf (a || w.sig) fNV)
  | w, .nan a => (.nan false, fIf (a || w.sig) fNV)
  | .inf a, w => (match w with | .inf _ => (.nan false, fNV) | _ => (.inf (a ^^ w.sign), 0))
  | .num s _ _, .inf b => (.num (s ^^ b) 0 0, 0)
  | .num s m e, .num s' m' e' =>
    if m' = 0 then (if m = 0 then (.nan false, fNV) else (.inf (s ^^ s'), fDZ))
    else
      let k := 60 + Nat.log2 m'
      let n := m * 2 ^ k
      (.num (s ^^ s') (2 * (n / m') + bn (n % m' ≠ 0)) (e - e' - k - 1), 0)
/-- Integer square root by bits: the largest `r` below 2^`k` above `r0` whose square is at most `n`. -/
def isqrt (n : Nat) : Nat → Nat → Nat
  | 0, r => r
  | k + 1, r => if (r + 2 ^ k) * (r + 2 ^ k) ≤ n then isqrt n k (r + 2 ^ k) else isqrt n k r
/-- Exact square root, likewise. -/
def FVal.sqrt (u : FVal) : FVal × BitVec 6 :=
  match u with
  | .nan a => (.nan false, fIf a fNV)
  | .inf s => if s then (.nan false, fNV) else (.inf false, 0)
  | .num s m e =>
    if m = 0 then (.num s 0 0, 0)
    else if s then (.nan false, fNV)
    else
      let k := 130 + (e % 2).toNat
      let n := m * 2 ^ k
      let r := isqrt n (Nat.log2 n / 2 + 1) 0
      (.num false (2 * r + bn (r * r ≠ n)) ((e - k) / 2 - 1), 0)
/-- The order of two values that are no NaN, zeros equal. -/
def FVal.lt (u v : FVal) : Bool :=
  match u, v with
  | .nan _, _ => false
  | _, .nan _ => false
  | .inf a, .inf b => a && !b
  | .inf a, _ => a
  | _, .inf b => !b
  | .num s m e, .num s' m' e' =>
    let q := min e e'
    decide (sgnInt s (m * 2 ^ (e - q).toNat) < sgnInt s' (m' * 2 ^ (e' - q).toNat))
/-- Equality of values, zeros equal and NaNs unequal. -/
def FVal.eq (u v : FVal) : Bool := !u.isNaN && !v.isNaN && !u.lt v && !v.lt u

/-! ### Operations on encodings: result and flags (R235 to R237) -/

/-- Pack the result of an exact operation with its flags. -/
def packOp (t : Nat) (r : FVal × BitVec 6) (rnd : Nat) (sat : Bool) : Nat × BitVec 6 :=
  let (v, f) := pack t r.1 rnd sat
  (v, f ||| r.2)
/-- Sum. -/
def fpAdd (t a b rnd : Nat) (sat : Bool) : Nat × BitVec 6 := packOp t (FVal.add rnd (unpack t a) (unpack t b)) rnd sat
/-- Difference. -/
def fpSub (t a b rnd : Nat) (sat : Bool) : Nat × BitVec 6 := packOp t (FVal.add rnd (unpack t a) (unpack t b).neg) rnd sat
/-- Product. -/
def fpMul (t a b rnd : Nat) (sat : Bool) : Nat × BitVec 6 := packOp t (FVal.mul (unpack t a) (unpack t b)) rnd sat
/-- a·b + c, or a·b − c. -/
def fpFma (t a b c rnd : Nat) (sub sat : Bool) : Nat × BitVec 6 :=
  let (p, f) := FVal.mul (unpack t a) (unpack t b)
  let w := unpack t c
  let (r, g) := FVal.add rnd p (if sub then w.neg else w)
  packOp t (r, f ||| g) rnd sat
/-- Quotient. -/
def fpDiv (t a b rnd : Nat) (sat : Bool) : Nat × BitVec 6 := packOp t (FVal.div (unpack t a) (unpack t b)) rnd sat
/-- Square root. -/
def fpSqrt (t a rnd : Nat) (sat : Bool) : Nat × BitVec 6 := packOp t (FVal.sqrt (unpack t a)) rnd sat
/-- Smaller (R236); −0 is smaller than +0. -/
def fpMin (t a b : Nat) : Nat × BitVec 6 :=
  let u := unpack t a
  let v := unpack t b
  let f := fIf (u.sig || v.sig) fNV
  if u.isNaN then (if v.isNaN then canonNaN t else b, f)
  else if v.isNaN then (a, f)
  else if u.lt v || (u.eq v && u.sign) then (a, f) else (b, f)
/-- Larger (R236). -/
def fpMax (t a b : Nat) : Nat × BitVec 6 :=
  let u := unpack t a
  let v := unpack t b
  let f := fIf (u.sig || v.sig) fNV
  if u.isNaN then (if v.isNaN then canonNaN t else b, f)
  else if v.isNaN then (a, f)
  else if v.lt u || (u.eq v && !u.sign) then (a, f) else (b, f)
/-- Equality (R237). -/
def fpEq (t a b : Nat) : Bool × BitVec 6 :=
  let u := unpack t a
  let v := unpack t b
  (u.eq v, fIf (u.sig || v.sig) fNV)
/-- Less than (R237). -/
def fpLt (t a b : Nat) : Bool × BitVec 6 :=
  let u := unpack t a
  let v := unpack t b
  (u.lt v, fIf (u.isNaN || v.isNaN) fNV)
/-- Less than or equal (R237). -/
def fpLe (t a b : Nat) : Bool × BitVec 6 :=
  let u := unpack t a
  let v := unpack t b
  (u.lt v || u.eq v, fIf (u.isNaN || v.isNaN) fNV)
/-- The class bit of R239. -/
def fpClass (t a : Nat) : Nat :=
  match unpack t a with
  | .nan sig => if sig then 8 else 9
  | .inf s => if s then 0 else 7
  | .num s m _ =>
    if m = 0 then (if s then 3 else 4)
    else if m < 2 ^ fracBits t then (if s then 2 else 5)
    else (if s then 1 else 6)

/-! ### Integer types and conversions (R220, R221, R238) -/

/-- The value of an integer type's bits. -/
def intVal (t v : Nat) : Int := if tyIsSInt t ∧ bit v (tyW t - 1) then (v : Int) - 2 ^ tyW t else v
/-- The bits of a value in an integer type, reduced modulo its width. -/
def intBits (t : Nat) (i : Int) : Nat := (i % 2 ^ tyW t).toNat
/-- Smallest value of an integer type. -/
def intMin (t : Nat) : Int := if tyIsSInt t then -2 ^ (tyW t - 1) else 0
/-- Largest value of an integer type. -/
def intMax (t : Nat) : Int := if tyIsSInt t then 2 ^ (tyW t - 1) - 1 else 2 ^ tyW t - 1
/-- ±m·2^e rounded to an integer, and whether it was inexact. -/
def roundInt (s : Bool) (m : Nat) (e : Int) (rnd : Nat) : Int × Bool :=
  let (r, x) := roundTo s m e 0 rnd
  (sgnInt s r, x)
/-- Conversion of an exact value into a type; a NaN that signals sets NV (R238). -/
def convVal (dt : Nat) (u : FVal) (rnd : Nat) (sat : Bool) : Nat × BitVec 6 :=
  if tyIsFloat dt then
    let (r, f) := pack dt u rnd sat
    (r, f ||| fIf u.sig fNV)
  else
    match u with
    | .nan _ => (0, fNV)
    | .inf s => (intBits dt (if s then intMin dt else intMax dt), fNV)
    | .num s m e =>
      let (i, x) := roundInt s m e rnd
      if i < intMin dt then (intBits dt (intMin dt), fNV ||| fIf x fNX)
      else if intMax dt < i then (intBits dt (intMax dt), fNV ||| fIf x fNX)
      else (intBits dt i, fIf x fNX)
/-- Conversion of one value between types (R238). -/
def convert (dt st v rnd : Nat) (sat : Bool) : Nat × BitVec 6 :=
  if tyIsFloat st then
    (if dt = st && !(unpack st v).isNaN then (v, 0) else convVal dt (unpack st v) rnd sat)
  else
    let i := intVal st v
    if tyIsFloat dt then roundNum dt (decide (i < 0)) i.natAbs 0 rnd sat
    else if intMin dt ≤ i ∧ i ≤ intMax dt then (intBits dt i, 0)
    else if sat then (intBits dt (if i < intMin dt then intMin dt else intMax dt), fSAT)
    else (intBits dt i, 0)
/-- A value of a type as an x register holds it (R221). -/
def xOf (t v : Nat) : W64 := if tyIsSInt t then sxt (tyW t) v else w64 (v % 2 ^ tyW t)
/-- The value of a type that an x register holds (R221). -/
def ofX (t : Nat) (x : W64) : Nat := x.toNat % 2 ^ tyW t

end Sys2Proof.Machine
end

