-- ==== Sys2Proof/Machine/Integer.lean ====
section
/-! DEFINITION. Integer register and immediate operations (R131 to R139). -/
namespace Sys2Proof.Machine
open Sys2Proof

/-- Bits [127:64] of a 128-bit product (R135). -/
def mulHigh (p q : Int) : W64 := BitVec.ofInt 64 (p * q / 2 ^ 64)
/-- Signed quotient with the boundary cases of R136. -/
def divS (u v : W64) : W64 := if v = 0 then BitVec.allOnes 64 else BitVec.ofInt 64 (u.toInt.tdiv v.toInt)
/-- Unsigned quotient (R136). -/
def divN (u v : W64) : W64 := if v = 0 then BitVec.allOnes 64 else w64 (u.toNat / v.toNat)
/-- Signed remainder (R136). -/
def remS (u v : W64) : W64 := if v = 0 then u else BitVec.ofInt 64 (u.toInt.tmod v.toInt)
/-- Unsigned remainder (R136). -/
def remN (u v : W64) : W64 := if v = 0 then u else w64 (u.toNat % v.toNat)
/-- The number of zero bits above the highest one bit; 64 for zero (R135). -/
def clzOp (u : W64) : Nat := ((List.range 64).find? fun i => u.getLsbD (63 - i)).getD 64
/-- The number of zero bits below the lowest one bit; 64 for zero (R135). -/
def ctzOp (u : W64) : Nat := ((List.range 64).find? fun i => u.getLsbD i).getD 64
/-- The number of one bits (R135). -/
def popOp (u : W64) : Nat := ((List.range 64).filter fun i => u.getLsbD i).length
/-- The position of the field that xb describes (R137). -/
def fieldPos (v : W64) : Nat := bits v.toNat 0 6
/-- The mask of its length (R137). -/
def fieldMask (v : W64) : Nat := 2 ^ (bits v.toNat 6 6 + 1) - 1
/-- BEXT (R137). -/
def bextOp (u v : W64) : W64 := w64 (u.toNat / 2 ^ fieldPos v) &&& w64 (fieldMask v)
/-- BINS (R137): `c` is the old destination. -/
def binsOp (c u v : W64) : W64 :=
  (c &&& ~~~w64 (fieldMask v * 2 ^ fieldPos v)) ||| w64 ((u &&& w64 (fieldMask v)).toNat * 2 ^ fieldPos v)

/-- An instruction that computes one scalar register from the context's registers and its PC, and touches nothing else (R131, R132). -/
def scalar (i : Instr) (used : List Nat) (d : Nat) (f : Ctx → W64) (s : State) : Host.Outcome State Fault Refusal :=
  run s fun e c => issue e c i { x := d :: used } fun _ c xk x => .retire (c.modCtx xk fun y => y.setX d (f x))
/-- The register form: two sources (R134). -/
def alu (i : Instr) (d a b : BitVec 5) (f : W64 → W64 → W64) (s : State) : Host.Outcome State Fault Refusal :=
  scalar i [a.toNat, b.toNat] d.toNat (fun x => f (x.getX a.toNat) (x.getX b.toNat)) s
/-- One source. -/
def alu1 (i : Instr) (d a : BitVec 5) (f : W64 → W64) (s : State) : Host.Outcome State Fault Refusal :=
  scalar i [a.toNat] d.toNat (fun x => f (x.getX a.toNat)) s

/-- ADD (R135). -/
def execAdd (d a b : BitVec 5) (s : State) : Host.Outcome State Fault Refusal := alu (.add d a b) d a b (fun u v => u + v) s
/-- SUB (R135). -/
def execSub (d a b : BitVec 5) (s : State) : Host.Outcome State Fault Refusal := alu (.sub d a b) d a b (fun u v => u - v) s
/-- AND (R135). -/
def execAnd (d a b : BitVec 5) (s : State) : Host.Outcome State Fault Refusal := alu (.and d a b) d a b (fun u v => u &&& v) s
/-- ANDN (R135). -/
def execAndn (d a b : BitVec 5) (s : State) : Host.Outcome State Fault Refusal := alu (.andn d a b) d a b (fun u v => u &&& ~~~v) s
/-- OR (R135). -/
def execOr (d a b : BitVec 5) (s : State) : Host.Outcome State Fault Refusal := alu (.or d a b) d a b (fun u v => u ||| v) s
/-- XOR (R135). -/
def execXor (d a b : BitVec 5) (s : State) : Host.Outcome State Fault Refusal := alu (.xor d a b) d a b (fun u v => u ^^^ v) s
/-- SLL (R135). -/
def execSll (d a b : BitVec 5) (s : State) : Host.Outcome State Fault Refusal := alu (.sll d a b) d a b (fun u v => u <<< (v.toNat % 64)) s
/-- SRL (R135). -/
def execSrl (d a b : BitVec 5) (s : State) : Host.Outcome State Fault Refusal := alu (.srl d a b) d a b (fun u v => u >>> (v.toNat % 64)) s
/-- SRA (R135). -/
def execSra (d a b : BitVec 5) (s : State) : Host.Outcome State Fault Refusal := alu (.sra d a b) d a b (fun u v => u.sshiftRight (v.toNat % 64)) s
/-- MUL (R135). -/
def execMul (d a b : BitVec 5) (s : State) : Host.Outcome State Fault Refusal := alu (.mul d a b) d a b (fun u v => u * v) s
/-- MULH (R135). -/
def execMulh (d a b : BitVec 5) (s : State) : Host.Outcome State Fault Refusal := alu (.mulh d a b) d a b (fun u v => mulHigh u.toInt v.toInt) s
/-- MULHN (R135). -/
def execMulhn (d a b : BitVec 5) (s : State) : Host.Outcome State Fault Refusal := alu (.mulhn d a b) d a b (fun u v => mulHigh u.toNat v.toNat) s
/-- DIV (R136). -/
def execDiv (d a b : BitVec 5) (s : State) : Host.Outcome State Fault Refusal := alu (.div d a b) d a b (fun u v => divS u v) s
/-- DIVN (R136). -/
def execDivn (d a b : BitVec 5) (s : State) : Host.Outcome State Fault Refusal := alu (.divn d a b) d a b (fun u v => divN u v) s
/-- REM (R136). -/
def execRem (d a b : BitVec 5) (s : State) : Host.Outcome State Fault Refusal := alu (.rem d a b) d a b (fun u v => remS u v) s
/-- REMN (R136). -/
def execRemn (d a b : BitVec 5) (s : State) : Host.Outcome State Fault Refusal := alu (.remn d a b) d a b (fun u v => remN u v) s
/-- MIN (R135). -/
def execMin (d a b : BitVec 5) (s : State) : Host.Outcome State Fault Refusal := alu (.min d a b) d a b (fun u v => if u.slt v then u else v) s
/-- MAX (R135). -/
def execMax (d a b : BitVec 5) (s : State) : Host.Outcome State Fault Refusal := alu (.max d a b) d a b (fun u v => if u.slt v then v else u) s
/-- MINN (R135). -/
def execMinn (d a b : BitVec 5) (s : State) : Host.Outcome State Fault Refusal := alu (.minn d a b) d a b (fun u v => if u.ult v then u else v) s
/-- MAXN (R135). -/
def execMaxn (d a b : BitVec 5) (s : State) : Host.Outcome State Fault Refusal := alu (.maxn d a b) d a b (fun u v => if u.ult v then v else u) s
/-- SLT (R135). -/
def execSlt (d a b : BitVec 5) (s : State) : Host.Outcome State Fault Refusal := alu (.slt d a b) d a b (fun u v => b64 (u.slt v)) s
/-- SLTN (R135). -/
def execSltn (d a b : BitVec 5) (s : State) : Host.Outcome State Fault Refusal := alu (.sltn d a b) d a b (fun u v => b64 (u.ult v)) s
/-- SEQ (R135). -/
def execSeq (d a b : BitVec 5) (s : State) : Host.Outcome State Fault Refusal := alu (.seq d a b) d a b (fun u v => b64 (u == v)) s
/-- BEXT (R137). -/
def execBext (d a b : BitVec 5) (s : State) : Host.Outcome State Fault Refusal := alu (.bext d a b) d a b (fun u v => bextOp u v) s
/-- CLZ (R135). -/
def execClz (d a : BitVec 5) (s : State) : Host.Outcome State Fault Refusal := alu1 (.clz d a) d a (fun u => w64 (clzOp u)) s
/-- CTZ (R135). -/
def execCtz (d a : BitVec 5) (s : State) : Host.Outcome State Fault Refusal := alu1 (.ctz d a) d a (fun u => w64 (ctzOp u)) s
/-- POPC (R135). -/
def execPopc (d a : BitVec 5) (s : State) : Host.Outcome State Fault Refusal := alu1 (.popc d a) d a (fun u => w64 (popOp u)) s
/-- BINS (R137). -/
def execBins (d a b : BitVec 5) (s : State) : Host.Outcome State Fault Refusal :=
  scalar (.bins d a b) [a.toNat, b.toNat] d.toNat (fun x => binsOp (x.getX d.toNat) (x.getX a.toNat) (x.getX b.toNat)) s
/-- ADDI (R138). -/
def execAddi (d a : BitVec 5) (i : BitVec 16) (s : State) : Host.Outcome State Fault Refusal := alu1 (.addi d a i) d a (fun u => u + sxt 16 i.toNat) s
/-- ANDI (R138). -/
def execAndi (d a : BitVec 5) (i : BitVec 16) (s : State) : Host.Outcome State Fault Refusal := alu1 (.andi d a i) d a (fun u => u &&& w64 i.toNat) s
/-- ORI (R138). -/
def execOri (d a : BitVec 5) (i : BitVec 16) (s : State) : Host.Outcome State Fault Refusal := alu1 (.ori d a i) d a (fun u => u ||| w64 i.toNat) s
/-- XORI (R138). -/
def execXori (d a : BitVec 5) (i : BitVec 16) (s : State) : Host.Outcome State Fault Refusal := alu1 (.xori d a i) d a (fun u => u ^^^ w64 i.toNat) s
/-- SLTI (R138). -/
def execSlti (d a : BitVec 5) (i : BitVec 16) (s : State) : Host.Outcome State Fault Refusal := alu1 (.slti d a i) d a (fun u => b64 (u.slt (sxt 16 i.toNat))) s
/-- SLTIN (R138). -/
def execSltin (d a : BitVec 5) (i : BitVec 16) (s : State) : Host.Outcome State Fault Refusal := alu1 (.sltin d a i) d a (fun u => b64 (u.ult (sxt 16 i.toNat))) s
/-- SLLI (R138). -/
def execSlli (d a : BitVec 5) (sh : BitVec 6) (s : State) : Host.Outcome State Fault Refusal := alu1 (.slli d a sh) d a (fun u => u <<< sh.toNat) s
/-- SRLI (R138). -/
def execSrli (d a : BitVec 5) (sh : BitVec 6) (s : State) : Host.Outcome State Fault Refusal := alu1 (.srli d a sh) d a (fun u => u >>> sh.toNat) s
/-- SRAI (R138). -/
def execSrai (d a : BitVec 5) (sh : BitVec 6) (s : State) : Host.Outcome State Fault Refusal := alu1 (.srai d a sh) d a (fun u => u.sshiftRight sh.toNat) s
/-- LUI (R138). -/
def execLui (d : BitVec 5) (i : BitVec 16) (s : State) : Host.Outcome State Fault Refusal := scalar (.lui d i) [] d.toNat (fun _ => sxt 16 i.toNat * 65536) s
/-- APC (R138). -/
def execApc (d : BitVec 5) (i : BitVec 16) (s : State) : Host.Outcome State Fault Refusal := scalar (.apc d i) [] d.toNat (fun x => x.pc + sxt 16 i.toNat * 65536) s

end Sys2Proof.Machine
end

