-- ==== Sys2Proof/Machine/Control.lean ====
section
/-! DEFINITION. Jumps, branches, hardware loops, WAIT, YIELD, GTWAIT, the FMT prefix and the control registers (R122 to
R127, R140 to R155, R311). -/
namespace Sys2Proof.Machine
open Sys2Proof

/-! ### Jumps and branches (R140 to R142) -/

/-- JAL (R140). -/
def execJal (d : BitVec 5) (o : BitVec 21) (s : State) : Host.Outcome State Fault Refusal :=
  run s fun e c => issue e c (.jal d o) { x := [d.toNat] } fun _ c xk x =>
    .jump (c.modCtx xk fun y => y.setX d.toNat (x.pc + 4)) (x.pc + 4 * sxt 21 o.toNat)
/-- JALR (R141): a misaligned target traps MISPC, and no link is written. -/
def execJalr (d a : BitVec 5) (i : BitVec 16) (s : State) : Host.Outcome State Fault Refusal :=
  run s fun e c => issue e c (.jalr d a i) { x := [d.toNat, a.toNat] } fun _ c xk x =>
    let t := x.getX a.toNat + sxt 16 i.toNat
    if t.toNat % 4 ≠ 0 then .trap 0x03 t else .jump (c.modCtx xk fun y => y.setX d.toNat (x.pc + 4)) t
/-- A branch (R142). -/
def branch (i : Instr) (a b : BitVec 5) (o : BitVec 16) (f : W64 → W64 → Bool) (s : State) : Host.Outcome State Fault Refusal :=
  run s fun e c => issue e c i { x := [a.toNat, b.toNat] } fun _ c _ x =>
    if f (x.getX a.toNat) (x.getX b.toNat) then .jump c (x.pc + 4 * sxt 16 o.toNat) else .retire c
/-- BEQ (R142). -/
def execBeq (a b : BitVec 5) (o : BitVec 16) (s : State) : Host.Outcome State Fault Refusal := branch (.beq a b o) a b o (fun u v => u == v) s
/-- BNE (R142). -/
def execBne (a b : BitVec 5) (o : BitVec 16) (s : State) : Host.Outcome State Fault Refusal := branch (.bne a b o) a b o (fun u v => u != v) s
/-- BLT (R142). -/
def execBlt (a b : BitVec 5) (o : BitVec 16) (s : State) : Host.Outcome State Fault Refusal := branch (.blt a b o) a b o (fun u v => u.slt v) s
/-- BGE (R142). -/
def execBge (a b : BitVec 5) (o : BitVec 16) (s : State) : Host.Outcome State Fault Refusal := branch (.bge a b o) a b o (fun u v => v.sle u) s
/-- BLTN (R142). -/
def execBltn (a b : BitVec 5) (o : BitVec 16) (s : State) : Host.Outcome State Fault Refusal := branch (.bltn a b o) a b o (fun u v => u.ult v) s
/-- BGEN (R142). -/
def execBgen (a b : BitVec 5) (o : BitVec 16) (s : State) : Host.Outcome State Fault Refusal := branch (.bgen a b o) a b o (fun u v => v.ule u) s

/-! ### Hardware loops (R143 to R148) -/

/-- The instruction retires with a next PC of its own, without the end check of R145 and without R146. -/
def Chip.retireAt (c : Chip) (xk : Nat) (t : W64) : Chip := c.modCtx xk fun y => y.retired t
/-- LOOP (R144): the checks in order, then the body is entered, or skipped with the end check of the enclosing levels. -/
def execLoop (l : BitVec 2) (a b : BitVec 5) (s : State) : Host.Outcome State Fault Refusal :=
  run s fun e c => issue e c (.loop l a b) { x := [a.toNat, b.toNat] } fun _ c xk x =>
    let word := w64 (encode (.loop l a b)).toNat
    let n := l.toNat
    let cnt := x.getX a.toNat
    let len := (x.getX b.toNat).toNat
    let start := x.pc + 4
    let stop := x.pc + w64 (4 * len)
    let on (m : Nat) : Bool := x.lpc.get 0 m ≠ 0
    if !x.feed then .trap 0x0F 0
    else if len = 0 ∨ 65536 < len then .trap 0x01 (x.getX b.toNat)
    else if (List.range 4).any (fun m => n ≤ m && on m) then .trap 0x01 word
    else if (List.range n).any (fun m => on m && (start.ult (x.lps.get 0 m) || (x.lpe.get 0 m).ult stop)) then .trap 0x01 word
    else
      let y := { x with lps := x.lps.put n start, lpe := x.lpe.put n stop }
      if cnt ≠ 0 then .stay ((c.setCtx xk { y with lpc := y.lpc.put n cnt }).retireAt xk start)
      else
        let (z, t) := if x.noLoops then (y, stop + 4) else y.endCheck stop n
        if t.toNat % 4 ≠ 0 then .trap 0x03 t else .stay ((c.setCtx xk z).retireAt xk t)

/-! ### Waiting and yielding (R151, R153, R311) -/

/-- A limit of WAIT: 15 means any number (R151). -/
def limit (l : BitVec 4) : Nat := if l.toNat = 15 then 63 else l.toNat
/-- WAIT (R151). -/
def execWait (l st c m g : BitVec 4) (s : State) : Host.Outcome State Fault Refusal :=
  run s fun e ch => issue e ch (.wait l st c m g) {} fun _ ch _ x =>
    if x.within .ld (limit l) && x.within .st (limit st) && x.within .cp (limit c) && x.within .mx (limit m) && x.within .msg (limit g) then .retire ch
    else .wait ch (.ctrs (limit l) (limit st) (limit c) (limit m) (limit g))
/-- YIELD (R153). -/
def execYield (s : State) : Host.Outcome State Fault Refusal :=
  run s fun e c => issue e c .yield {} fun e c xk _ =>
    let id := c.serial
    let c := c.next.modCtx xk fun y => { y with yield := some id }
    let c := if 6 ≤ ctxNo xk then c.modCore (coreOf xk) fun k => { k with hrun := 1024 } else c
    .retire (c.timer (e.now + c.coreTicks (coreOf xk) 64) (.yieldExpiry xk id))
/-- YIELD_EXPIRY (R153): 64 cycles after its YIELD the context is eligible again. -/
def execYieldExpiry (xk stamp : Nat) (s : State) : Host.Outcome State Fault Refusal :=
  run s fun _ c => c.modCtx xk fun x => if x.yield = some stamp then { x with yield := none } else x
/-- GTWAIT (R311). -/
def execGtwait (a : BitVec 5) (s : State) : Host.Outcome State Fault Refusal :=
  run s fun e c => issue e c (.gtwait a) { x := [a.toNat] } fun e c xk x =>
    let t := (x.getX a.toNat).toNat
    if t ≤ e.now then .retire c
    else .wait (if x.wait = .time t then c else c.timer t (.gtwaitExpiry xk x.stamp)) (.time t)
/-- GTWAIT_EXPIRY (R311): the GTWAIT compares again, and retires. -/
def execGtwaitExpiry (xk stamp : Nat) (s : State) : Host.Outcome State Fault Refusal :=
  run s fun _ c => c.modCtx xk fun x => if x.st = .stall ∧ x.stamp = stamp then { x with st := .ready } else x
/-- FMT (R122, R123): the prefix is live for the next word; as the last instruction of an active loop body it traps PFXMIS. -/
def execFmt (a b : BitVec 4) (r sat : BitVec 2) (s : State) : Host.Outcome State Fault Refusal :=
  run s fun e c => issue e c (.fmt a b r sat) {} fun _ c xk x =>
    let w := encode (.fmt a b r sat)
    if !x.noLoops && (List.range 4).any (fun n => x.lpc.get 0 n ≠ 0 && x.lpe.get 0 n == x.pc) then .trap 0x04 (w64 w.toNat)
    else .stay ((c.retireAt xk (x.pc + 4)).modCtx xk fun y => { y with fmt := some w })

/-! ### Control registers (R125 to R127, R154, R155) -/

/-- Access to a register of R125 in user mode and in privileged mode: 0 none, 1 read-only, 2 read-write. -/
def crAccess (cr : Nat) : Nat × Nat :=
  if cr = 0x000 then (2, 2)
  else if cr ≤ 0x004 then (0, 2)
  else if cr = 0x005 then (2, 2)
  else if cr = 0x006 then (1, 1)
  else if cr ≤ 0x009 then (1, 2)
  else if cr = 0x00A then (1, 1)
  else if cr = 0x00B then (1, 2)
  else if cr ≤ 0x00D then (2, 2)
  else if cr = 0x00E then (1, 2)
  else if cr ≤ 0x029 then (2, 2)
  else if cr ≤ 0x03B then (1, 2)
  else if cr = 0x040 then (0, 2)
  else if cr = 0x041 then (1, 1)
  else if cr = 0x042 then (1, 2)
  else if cr ≤ 0x05F then (1, 2)
  else (0, 1)
/-- MBCFG of a mailbox (R343). -/
def Mbox.cfg (m : Mbox) : W64 :=
  w64 (bn m.spill * 2 ^ 60 + bn m.frz * 2 ^ 59 + bn m.run * 2 ^ 58 + bn m.en * 2 ^ 57 + m.count * 2 ^ 50 + m.refcnt * 2 ^ 30 +
    m.depthm1 * 2 ^ 24 + m.size * 2 ^ 8 + m.type)
/-- FBSTAT of a die (R380). -/
def Die.fbstat (d : Die) : W64 := w64 (d.wm * 2 ^ 32 + bn d.ovf * 2 ^ 31 + bn d.lowint * 2 ^ 30 + d.fbcount)
/-- FBSTAT written: WM, and LOWINT cleared by a 1 (R380). -/
def Die.setFbstat (d : Die) (v : W64) : Die := { d with wm := bits v.toNat 32 11, lowint := d.lowint && !bit v.toNat 30 }
/-- A CMAP entry of a die (R82). -/
def Chip.cmapEntry (c : Chip) (die l : Nat) : W64 :=
  let p := (c.die die).cmap.get l l
  w64 (bn (c.frozen (die * 768 + l)) * 2 ^ 12 + p / 192 * 2 ^ 10 + p % 192)
/-- A copy register by number (R191). -/
def CpRegs.get (r : CpRegs) (n : Nat) : W64 :=
  match n with
  | 0 => r.src | 1 => r.dst | 2 => r.stra | 3 => r.strb | 4 => r.shape | 5 => r.bound | 6 => r.ver | 7 => r.done | 8 => r.dev | _ => r.mcast
/-- A copy register written (R191). -/
def CpRegs.set (r : CpRegs) (n : Nat) (v : W64) : CpRegs :=
  match n with
  | 0 => { r with src := v }
  | 1 => { r with dst := v }
  | 2 => { r with stra := v }
  | 3 => { r with strb := v }
  | 4 => { r with shape := v }
  | 5 => { r with bound := v }
  | 6 => { r with ver := v }
  | 7 => { r with done := v }
  | 8 => { r with dev := v }
  | _ => { r with mcast := v }
/-- ReadCr (R125, R154, R155). -/
def readCr (e : Env) (c : Chip) (xk cr : Nat) : W64 :=
  let x := c.ctx xk
  let ck := coreOf xk
  if cr = 0x000 then x.status xk
  else if cr = 0x001 then x.cause
  else if cr = 0x002 then x.epc
  else if cr = 0x003 then x.tval
  else if cr = 0x004 then x.trapvec
  else if cr = 0x005 then x.upcallvec
  else if cr = 0x006 then w64 (ctxId c.group xk)
  else if cr = 0x007 then x.tilecoord
  else if cr = 0x008 then x.geom
  else if cr = 0x009 then x.workctr
  else if cr = 0x00A then w64 e.now
  else if cr = 0x00B then w64 x.vismax
  else if cr = 0x00C then w64 x.fpflags.toNat
  else if cr = 0x00D then w64 x.fprnd.toNat
  else if cr = 0x00E then w64 (bn x.seqValid * 2 ^ 16 + x.seqSeg)
  else if cr = 0x00F then x.pfxsave
  else if cr < 0x018 then x.msh.get 0 (cr - 0x010)
  else if cr < 0x02A then x.cp.get (cr - 0x020)
  else if cr < 0x034 then x.lps.get 0 (cr - 0x030)
  else if cr < 0x038 then x.lpe.get 0 (cr - 0x034)
  else if cr < 0x03C then x.lpc.get 0 (cr - 0x038)
  else if cr = 0x040 then (c.die (dieOf ck)).fbstat
  else if cr = 0x041 then (c.vi x.vi).hedgecfg
  else if cr = 0x042 then w64 (bn x.dlen * 256 + x.holdlg)
  else if cr < 0x060 then
    let m := (c.core ck).mbs.get ({} : Mbox) (cr - 0x050)
    if m.vi = x.vi then m.cfg else 0
  else c.cmapEntry (dieOf ck) (cr - 0x400)
/-- WriteCr (R125, R126, R154): read-only fields keep their values. -/
def writeCr (c : Chip) (xk cr : Nat) (v : W64) : Chip :=
  let ck := coreOf xk
  let n := v.toNat
  if cr = 0x040 then c.modDie (dieOf ck) fun d => d.setFbstat v
  else if 0x050 ≤ cr ∧ cr < 0x060 then
    if ((c.core ck).mbs.get ({} : Mbox) (cr - 0x050)).vi = (c.ctx xk).vi then
      c.modCore ck fun k => { k with mbs := k.mbs.put (cr - 0x050) { k.mbs.get ({} : Mbox) (cr - 0x050) with frz := bit n 59 } }
    else c
  else c.modCtx xk fun x =>
    if cr = 0x000 then { x with pendPfx := bit n 3, ppriv := if x.priv then bit n 2 else x.ppriv }
    else if cr = 0x001 then { x with cause := w64 (n % 2 ^ 9) }
    else if cr = 0x002 then { x with epc := w64 (n / 4 * 4) }
    else if cr = 0x003 then { x with tval := v }
    else if cr = 0x004 then { x with trapvec := w64 (bits n 2 50 * 4) }
    else if cr = 0x005 then { x with upcallvec := v }
    else if cr = 0x007 then { x with tilecoord := w64 (n % 2 ^ 48) }
    else if cr = 0x008 then { x with geom := v }
    else if cr = 0x009 then { x with workctr := v }
    else if cr = 0x00B then { x with vismax := n }
    else if cr = 0x00C then { x with fpflags := BitVec.ofNat 6 n ||| x.fpNow }
    else if cr = 0x00D then { x with fprnd := BitVec.ofNat 2 n }
    else if cr = 0x00E then { x with seqValid := bit n 16, seqSeg := n % 2 ^ 16 }
    else if cr = 0x00F then { x with pfxsave := w64 (n % 2 ^ 32) }
    else if cr < 0x018 then { x with msh := x.msh.put (cr - 0x010) (w64 (n % 2 ^ 36)) }
    else if cr < 0x02A then { x with cp := x.cp.set (cr - 0x020) v }
    else if cr < 0x034 then { x with lps := x.lps.put (cr - 0x030) v }
    else if cr < 0x038 then { x with lpe := x.lpe.put (cr - 0x034) v }
    else if cr < 0x03C then { x with lpc := x.lpc.put (cr - 0x038) v }
    else { x with dlen := bit n 8, holdlg := n % 32 }
/-- MTC (R125, R154): a write to SEQSTATE stands after its own retirement (R282), and a write to WORKCTR is counted on. -/
def execMtc (a : BitVec 5) (cr : BitVec 12) (s : State) : Host.Outcome State Fault Refusal :=
  run s fun e c => issue e c (.mtc a cr) { x := [a.toNat] } fun _ c xk x =>
    let word := w64 (encode (.mtc a cr)).toNat
    let n := cr.toNat
    let (u, p) := crAccess n
    if (if x.priv then p else u) ≠ 2 then .trap (if u = 0 && !x.priv || p = 2 then 0x02 else 0x01) word
    else
      let v := x.getX a.toNat
      if n = 0x00E then
        let (y, t) := x.nextPc x.pc
        if t.toNat % 4 ≠ 0 then .trap 0x03 t
        else .stay (writeCr ((c.setCtx xk y).retireAt xk t) xk n v)
      else .retire (writeCr c xk n v)
/-- MFC (R125, R154, R155). -/
def execMfc (d : BitVec 5) (cr : BitVec 12) (s : State) : Host.Outcome State Fault Refusal :=
  run s fun e c => issue e c (.mfc d cr) { x := [d.toNat] } fun e c xk x =>
    let (u, p) := crAccess cr.toNat
    if (if x.priv then p else u) = 0 then .trap 0x02 (w64 (encode (.mfc d cr)).toNat)
    else if cr.toNat = 0x00E ∧ x.cnt .mx ≠ 0 then .wait c (.ctrs 63 63 63 0 63)
    else .retire (c.modCtx xk fun y => y.setX d.toNat (readCr e c xk cr.toNat))

end Sys2Proof.Machine
end

