-- ==== Sys2Proof/Machine/Home.lean ====
section
/-! DEFINITION. Translation at the receiver, private and shared pages, the homes of lines and the replies to cores
(R163 to R177, R180, R286, R287, R297 to R300, R376 to R384, R398). -/
namespace Sys2Proof.Machine
open Sys2Proof

/-! ### The page walk (R164 to R167) -/

/-- A leaf: the physical address of its entry, the logarithm of its page size, its two words (R165, R166). -/
structure Leaf where
  at_ : Nat
  lg : Nat
  w0 : Nat
  w1 : Nat
  deriving DecidableEq, Repr

/-- Physical address of the page (R166). -/
def Leaf.ppn (l : Leaf) : Nat := bits l.w0 16 24 * 2 ^ 16
/-- TGT (R166). -/
def Leaf.tgt (l : Leaf) : Nat := bits l.w0 10 2
/-- DEV (R166). -/
def Leaf.dev (l : Leaf) : Nat := bits l.w0 6 4
/-- Where a byte of a page of the host or of a peer device lies; DEV counts only for a peer (R166). -/
def Leaf.ext (l : Leaf) (off : Nat) : Nat := extAt l.tgt (if l.tgt = 2 then l.dev else 0) (l.ppn + off)
/-- CLASS: 0 UNTOUCHED, 1 PRIVATE, 2 SHARED (R166). -/
def Leaf.cls (l : Leaf) : Nat := bits l.w1 32 2
/-- OWNER as a core (R166). -/
def Leaf.owner (l : Leaf) : Nat := bits l.w1 44 3 * 768 + bits l.w1 42 2 * 192 + bits l.w1 34 8
/-- LEASE in ticks (R166). -/
def Leaf.lease (l : Leaf) : Nat := 64 * 4 ^ bits l.w1 30 2
/-- ERD and W of the page, as 1 and 2 (R166). -/
def Leaf.perm (l : Leaf) : Nat := bits l.w0 3 2
/-- PMODE: 0 HASH, 1 PIN, 2 FIRST (R166). -/
def Leaf.pmode (l : Leaf) : Nat := bits l.w1 0 2

/-- The members of a slice subset: dies, clusters (R168, R169). -/
def subset (c : Chip) (n : Nat) : List Nat × List Nat :=
  let v := (c.slset.get 0 n).toNat
  ((List.range 8).filter (bit v), (List.range 4).filter fun i => bit v (8 + i))
/-- The entry is a table entry with no reserved bit set and an aligned NEXT (R165). -/
def tableOk (w0 w1 al : Nat) : Bool :=
  w1 == 0 && bits w0 40 24 == 0 && bits w0 1 8 == 0 && (bits w0 9 31 * 512) % al == 0
/-- The leaf has no malformed or reserved field (R166 to R168). -/
def leafOk (c : Chip) (l : Leaf) : Bool :=
  bits l.w0 40 24 == 0 && bits l.w0 12 4 == 0 && !bit l.w0 1 && bits l.w1 47 17 == 0 && bits l.w1 28 2 == 0 &&
  bits l.w1 12 4 == 0 && bits l.w1 2 6 == 0 && l.cls ≠ 3 && l.pmode ≠ 3 && l.tgt ≠ 3 && l.ppn % 2 ^ l.lg == 0 &&
  (l.tgt ≠ 0 || l.ppn + 2 ^ l.lg ≤ 0xC000000000) &&
  (l.pmode ≠ 0 || (let s := subset c (bits l.w1 8 4); !s.1.isEmpty && !s.2.isEmpty))

/-- Word 1 of a leaf with CLASS, OWNER, PMODE and PSLICE taken from another (R166). -/
def ownFields (w from_ : Nat) : Nat :=
  w - bits w 32 2 * 2 ^ 32 - bits w 34 13 * 2 ^ 34 - bits w 0 2 - bits w 16 12 * 2 ^ 16 +
    bits from_ 32 2 * 2 ^ 32 + bits from_ 34 13 * 2 ^ 34 + bits from_ 0 2 + bits from_ 16 12 * 2 ^ 16
/-- The two words of a table entry, as memory holds them. -/
def entryNow (e : Env) (c : Chip) (a : Nat) : Nat × Nat := (leNat (rdN e c a 8), leNat (rdN e c (a + 8) 8))
/-- The two words of a table entry that a translation for a page uses: as memory holds them, or as the home has read them since the
last invalidation of the page; the fields of a leaf that the home writes itself are never stale (R167). -/
def entryOf (e : Env) (c : Chip) (vi page a : Nat) : Nat × Nat :=
  let new := entryNow e c a
  let fresh (t : TlbE) : Nat × Nat := if bit t.w0 2 && bit new.1 2 then (t.w0, ownFields t.w1 new.2) else (t.w0, t.w1)
  let old := ((c.tlb.filter fun t => t.vi == vi && t.page == page && t.at_ == a).map fresh).filter (· != new)
  match old with
  | [] => new
  | _ :: _ => (new :: old).getD (Config.entry c.frees % (old.length + 1)) new
/-- One level of the walk: the entry at `base + 16 * idx`, which is a leaf or names the next table (R165, R167). `al` is
the alignment of the next table, 0 at the last level. A failed level says whether its entry had V = 0 (R382). -/
def walkStep (e : Env) (c : Chip) (vi va base lo n al : Nat) (leafAllowed : Bool) : Except Bool (Leaf ⊕ Nat) :=
  let w := entryOf e c vi (va / 65536) (base + 16 * bits va lo n)
  let l : Leaf := ⟨base + 16 * bits va lo n, lo, w.1, w.2⟩
  if !bit l.w0 0 then .error true
  else if bit l.w0 2 then (if leafAllowed && leafOk c l then .ok (.inl l) else .error false)
  else if al ≠ 0 && tableOk l.w0 l.w1 al then .ok (.inr (bits l.w0 9 31 * 512))
  else .error false
/-- The next level of a walk. -/
def walkNext (r : Except Bool (Leaf ⊕ Nat)) (f : Nat → Except Bool (Leaf ⊕ Nat)) : Except Bool (Leaf ⊕ Nat) :=
  match r with
  | .ok (.inr b) => f b
  | x => x
/-- The leaf of a global address of an interface (R164, R165). -/
def walk (e : Env) (c : Chip) (vi : Nat) (va : W64) : Except Bool Leaf :=
  let w := c.vi vi
  let a := va.toNat % 2 ^ 50
  if !w.pten then .error false
  else
    let r := walkStep e c vi a (bits w.ptbase.toNat 15 25 * 2 ^ 15) 39 11 8192 false
    let r := walkNext r fun b => walkStep e c vi a b 30 9 8192 false
    let r := walkNext r fun b => walkStep e c vi a b 21 9 512 true
    let r := walkNext r fun b => walkStep e c vi a b 16 5 0 true
    match r with
    | .ok (.inl l) => .ok l
    | .ok (.inr _) => .error false
    | .error m => .error m

/-- The entries that a walk reads, from a level on. -/
def walkReads (e : Env) (c : Chip) (vi va base : Nat) : List (Nat × Nat) → List TlbE
  | [] => []
  | (lo, n) :: r =>
    let a := base + 16 * bits va lo n
    let w := entryOf e c vi (va / 65536) a
    ⟨vi, va / 65536, a, w.1, w.2⟩ :: (if bit w.1 0 && !bit w.1 2 then walkReads e c vi va (bits w.1 9 31 * 512) r else [])
/-- A translation has read these entries, which its home may keep (R167). -/
def Chip.noteWalk (e : Env) (c : Chip) (vi : Nat) (va : W64) : Chip :=
  let a := va.toNat % 2 ^ 50
  if !(c.vi vi).pten then c
  else
    let l := walkReads e c vi a (bits (c.vi vi).ptbase.toNat 15 25 * 2 ^ 15) [(39, 11), (30, 9), (21, 9), (16, 5)]
    let stale : Bool := l.any fun x => c.tlb.any fun t => t.vi == x.vi && t.page == x.page && t.at_ == x.at_ && t != x
    { c with tlb := l.foldl (fun t x => if t.contains x then t else x :: t) c.tlb, frees := if stale then c.frees + 1 else c.frees }
/-- A home drops what it has read for the pages of a 2 MiB region of an interface, or for all pages of which it is the home (R398). -/
def Chip.dropWalks (c : Chip) (die vi : Nat) (all : Bool) (va : W64) : Chip :=
  { c with tlb := c.tlb.filter fun t => !(t.vi == vi && (if all then hash21 (t.page * 65536) == die else t.page / 32 == va.toNat % 2 ^ 50 / 2 ^ 21)) }

/-- The nearest slice of a core (R168). -/
def nearest (ck : Nat) : Nat := dieOf ck * 512 + 128 * clusOf ck + 2 * coreNo ck / 3
/-- The home slice of a physical address under a leaf that is HASH or PIN (R168). -/
def sliceOf (c : Chip) (l : Leaf) (pa : Nat) : Nat :=
  if l.pmode = 1 then sliceNode (bits l.w1 25 3) (bits l.w1 16 9)
  else
    let (ds, cs) := subset c (bits l.w1 8 4)
    let i := pa / 128 % (ds.length * cs.length * 128)
    sliceNode (ds.getD (i / (cs.length * 128)) 0) (128 * cs.getD (i / 128 % cs.length) 0 + i % 128)

/-- The permission an access needs: 0 ERD, 1 W, 2 X, 3 none (R167). -/
def permNeed (a : Act) : Nat :=
  match a with
  | .store | .strel .. | .atomic .. | .lock .. | .claim .. | .gclaim .. | .sgrant .. | .publish .. | .stream .. | .rwi _ | .cpwrite .. => 1
  | .unpin _ | .unclaim .. => 3
  | _ => 0
/-- The access is a load, a store, a prefetch or a WADDR on a core's L1 path (R172, R216). -/
def l1Path (a : Act) : Bool := match a with | .load | .store | .pref | .waddr _ => true | _ => false

/-! ### Writing back and dropping lines (R172, R173) -/

/-- The L1 line lies in the page. -/
def inPage (vi : Nat) (page : W64) (size : Nat) (l : L1Line) : Bool :=
  l.vi == vi && decide (page.toNat ≤ l.va.toNat ∧ l.va.toNat < page.toNat + size)
/-- An address lies in a page. -/
def vaIn (page : W64) (size : Nat) (va : W64) : Bool := decide (page.toNat ≤ va.toNat ∧ va.toNat < page.toNat + size)
/-- Refills on their way to an owner that has dropped the page, or written back the line, are not installed (R173, R184). -/
def Chip.markStale (c : Chip) (p : Req → Bool) : Chip :=
  let hit (q : Req) : Bool := q.refill && p q
  { c with net := c.net.map fun f => match f.ev with
    | .loadRequest q => if hit q then { f with ev := .loadRequest { q with stale := true } } else f
    | .storeRequest q => if hit q then { f with ev := .storeRequest { q with stale := true } } else f
    | .loadReply q d l t => if hit q then { f with ev := .loadReply { q with stale := true } d l t } else f
    | _ => f }
/-- A writer that is a unit of the package and no core, the host, a peer device (R106, R290). -/
def unitWriter : Nat := 6144
/-- The host as a writer. -/
def hostWriter : Nat := 6145
/-- A peer device as a writer. -/
def peerWriter : Nat := 6146
/-- The writer of a request. -/
def reqWriter (q : Req) : Nat := if (reqPeer q).isSome then peerWriter else if q.host then hostWriter else coreOf q.src
/-- Bytes written at a home with their interface's key. The data unit is a line: what another interface had written into it is
unreadable from then on (R76). -/
def Chip.putKey (c : Chip) (vi pa : Nat) (d : List Byte) : Chip :=
  if pa < 2 ^ 40 ∧ !d.isEmpty then
    let lines := (List.range ((pa + d.length - 1) / 128 - pa / 128 + 1)).map fun i => pa / 128 + i
    let foreign (l : Nat) : Bool := c.tags.get 0 l != 0 && c.tags.get 0 l != vi + 1
    let c := ((lines.filter foreign).foldl (fun c l => c.mess (l * 128) 128) c).put pa d
    { c with tags := lines.foldl (fun t l => t.put l (vi + 1)) c.tags }
  else c.put pa d
/-- A write-back that its home has performed is acknowledged to its core (R173, R186). -/
def Chip.wbAcked (c : Chip) (ck serial : Nat) : Chip :=
  let c := c.modCore ck fun k => { k with wbs := k.wbs.filter (·.serial ≠ serial) }
  (List.range 8).foldl (fun c i => c.answer (ck * 8 + i) serial (.value 0 0)) c
/-- Every write-back on its way that meets `p` is performed at once. -/
def Chip.drainWb (c : Chip) (p : WriteBack → Bool) : Chip :=
  let pick (f : Flight) : Option WriteBack := match f.ev with | .writeBack w => if p w then some w else none | _ => none
  (c.net.filterMap pick).foldl (fun c w => (c.putKey w.vi w.pa w.data).wbAcked w.ck w.serial)
    { c with net := c.net.filter fun f => (pick f).isNone }
/-- A core's lines of the private pages that `p` names are written back and dropped in one step, with the write-backs on their way
(R173, R398). -/
def Chip.flushNow (c : Chip) (ck vi : Nat) (p : W64 → Bool) : Chip :=
  let c := c.drainWb fun w => w.ck == ck && w.vi == vi && p w.va
  let mine (l : L1Line) : Bool := l.vi == vi && p l.va && (match l.kind with | .owned _ => true | _ => false)
  let c := ((c.core ck).l1.filter mine).foldl (fun c l => match l.kind with | .owned true => c.putKey vi l.pa l.data | _ => c) c
  let c := (c.modCore ck fun k => { k with l1 := k.l1.filter fun l => !mine l }).sendWaddrs ck fun q => q.vi == vi && p q.va
  c.markStale fun q => q.vi == vi && coreOf q.src == ck && p q.va
/-- CLASS, OWNER, PMODE and PSLICE written into a leaf, whose word 1 memory holds as `now` (R166, R168, R172). -/
def Chip.putLeaf (c : Chip) (l : Leaf) (now cls owner pmode pslice : Nat) : Chip × Leaf :=
  let f := cls * 2 ^ 32 + owner * 2 ^ 34 + pmode + pslice * 2 ^ 16
  (c.put (l.at_ + 8) (leBytes 8 (ownFields now f)), { l with w1 := ownFields l.w1 f })
/-- A core in the layout of OWNER (R166). -/
def ownerField (ck : Nat) : Nat := dieOf ck * 2 ^ 10 + clusOf ck * 2 ^ 8 + coreNo ck

/-- The fabric port of the bridge: port 0 of CD0 (R31). -/
def bridgePort : Nat := 0
/-- The ports that traffic with hosts, or with other devices, may take: at the bridge device its bridge port for hosts, and the others
for devices (R31). -/
def Chip.pathPorts (c : Chip) (host : Bool) : List Nat :=
  if !c.bridge then List.range 24 else if host then [bridgePort] else (List.range 24).filter (· ≠ bridgePort)
/-- A place outside the package lies in host memory, not in a peer's (R166, R170). -/
def extHost (pa : Nat) : Bool := (pa - 2 ^ 50) / 2 ^ 46 == 1
/-- No fabric path is left to the host, or to the peer devices: every port that could carry the access is down (R31, R60). -/
def Chip.linkGone (c : Chip) (host : Bool) : Bool := (c.pathPorts host).all fun p => (c.port p).down
/-- Where a redirected operand of a copy lies: the tables of the interface on the peer, which must translate as the own ones do
(R197, log 97), read at device `g`: its memory, the host's, or that of a third device; or the status of R206. -/
def xlatePeer (e : Env) (c : Chip) (vi : Nat) (va : W64) (need g : Nat) : Except Nat (Nat × Nat) :=
  match walk e c vi va with
  | .error _ => .error 0x08
  | .ok l =>
    let off := va.toNat % 2 ^ l.lg
    if (need = 0 ∧ !bit l.w0 3) ∨ (need = 1 ∧ !bit l.w0 4) then .error 0x09
    else if l.tgt = 0 then .ok (bridgeNode, extAt 2 g (l.ppn + off))
    else if l.tgt = 2 ∧ l.dev = c.group % 16 then .ok (sliceOf c l (l.ppn + off), l.ppn + off)
    else .ok (bridgeNode, l.ext off)

/-- The outcome of a translation. -/
inductive Trans where
  | ok (c : Chip) (home pa lease : Nat) (refill : Bool) (perm : Nat)
  | hold (owner : Nat) (page : W64) (size leaf : Nat)
  | fault (code : Nat) (migr : Bool)
  deriving DecidableEq, Repr

/-- The translation home's work on one access: walk, permission, class and placement (R163 to R173). `ck` is the core on
whose L1 path the access comes, or none; `near` the core that FIRST places for; `keep` leaves a PRIVATE page as it is (R340). -/
def xlate (e : Env) (c : Chip) (vi : Nat) (va : W64) (need : Nat) (ck near : Option Nat) (keep : Bool) : Trans :=
  match walk e c vi va with
  | .error m => .fault 0x08 m
  | .ok l =>
    let c := c.noteWalk e vi va
    if (need = 0 ∧ !bit l.w0 3) ∨ (need = 1 ∧ !bit l.w0 4) ∨ (need = 2 ∧ !bit l.w0 5) then .fault 0x09 false
    else
      let off := va.toNat % 2 ^ l.lg
      if l.tgt ≠ 0 then .ok c bridgeNode (l.ext off) 0 false l.perm
      else
        let now := (entryNow e c l.at_).2
        let (c, l) := if l.pmode = 2 then
            c.putLeaf l now l.cls (bits l.w1 34 13) 1 (match near with | some k => nearest k | none => hash21 va.toNat * 512)
          else (c, l)
        let (c, l) := if l.cls = 0 then
            (match ck with
             | some k => c.putLeaf l now 1 (ownerField k) l.pmode (bits l.w1 16 12)
             | none => c.putLeaf l now 2 (bits l.w1 34 13) l.pmode (bits l.w1 16 12))
          else (c, l)
        let pa := l.ppn + off
        if l.cls = 1 ∧ !keep ∧ ck ≠ some l.owner then .hold l.owner (w64 (va.toNat / 2 ^ l.lg * 2 ^ l.lg)) (2 ^ l.lg) l.at_
        else .ok c (sliceOf c l pa) pa l.lease (l.cls == 1) l.perm
/-- CLASS := SHARED at a leaf address (R173). -/
def Chip.shareLeaf (e : Env) (c : Chip) (at_ : Nat) : Chip :=
  let l : Leaf := ⟨at_, 16, leNat (rdN e c at_ 8), leNat (rdN e c (at_ + 8) 8)⟩
  if l.cls = 1 then (c.putLeaf l l.w1 2 (bits l.w1 34 13) l.pmode (bits l.w1 16 12)).1 else c
/-- The code of an access that its translation home holds while a page is reclassified (R173). -/
def heldCode : Nat := 0x101
/-- Translation for an access that the model performs whole; one to a PRIVATE page is held (R173). -/
def Chip.reach (e : Env) (c : Chip) (vi : Nat) (va : W64) (need : Nat) (ck near : Option Nat) : Except (Nat × Bool) (Chip × Nat × Nat) :=
  match xlate e c vi va need ck near false with
  | .fault code m => .error (code, m)
  | .ok c h pa _ _ _ => if h == bridgeNode && c.linkGone (extHost pa) then .error (0x14, false) else .ok (c.drainWb (fun w => w.pa / 128 == pa / 128), h, pa)
  | .hold .. => .error (heldCode, false)
/-- FLUSH goes to the owner of a page that an access meets as PRIVATE, unless one is already on its way (R173). -/
def Chip.askFlush (c : Chip) (die vi owner : Nat) (page : W64) (size leaf : Nat) : Chip :=
  if (c.die die).reclass.any (fun r => r.vi == vi && r.page == page) then c
  else (c.modDie die fun d => { d with reclass := d.reclass ++ [⟨vi, page, size, leaf, [], none⟩] }).send (homeNode die) (coreNode owner) .req (.flush owner vi page size die)
/-- The access that `reach` holds has its page asked back from the owner (R173). -/
def Chip.askPage (e : Env) (c : Chip) (vi : Nat) (va : W64) (need : Nat) : Chip :=
  match xlate e c vi va need none none false with
  | .hold o page size leaf => c.askFlush (hash21 va.toNat) vi o page size leaf
  | _ => c

/-! ### Reads and writes at a home (R76, R174, R176, R359) -/

/-- Bytes read at a home for an interface: a line written under another interface's key reads as free bytes (R76). -/
def Chip.homeRead (e : Env) (c : Chip) (vi pa n : Nat) : List Byte :=
  (List.range n).map fun i =>
    let t := c.tags.get 0 ((pa + i) / 128)
    if pa + i < 2 ^ 40 ∧ t ≠ 0 ∧ t ≠ vi + 1 then Config.freeByte (1000000 + t * 64 + vi) (pa + i) else rd e c (pa + i)
/-- The word of a watched range that a write changes so that the binding fires (R359): its offset and new value. -/
def watchHit (e : Env) (c : Chip) (w : Watch) (pa : Nat) (d : List Byte) : Option (Nat × W64) :=
  (List.range (w.len + 1)).findSome? fun i =>
    let a := w.pa + 8 * i
    if meets a (a + 8) pa (pa + d.length) then
      let old := rdN e c a 8
      let new := (List.range 8).map fun j => if pa ≤ a + j ∧ a + j < pa + d.length then d.getD (a + j - pa) 0 else old.getD j 0
      if w.mask = 0 ∨ (w64 (leNat new) ^^^ w64 (leNat old)) &&& w.mask ≠ 0 then some (8 * i, w64 (leNat new)) else none
    else none
/-- The messages that a home sends: the core's task queue is their target (R354, R359). -/
def Chip.sendTask (c : Chip) (node : Nat) (t : Task) (seq : Nat) : Chip :=
  let m : Msg := { id := c.serial, src := 2 ^ 24 + node, vi := t.vi, name := w64 t.ck, dst := coreNode t.ck, seq := seq, body := .task t }
  (c.next.modHome node fun h => { h with msgs := h.msgs ++ [{ m := m, xk := 0, op := 0 }] }).send node (coreNode t.ck) .msg (.taskArrive m)
/-- LMAX of a line at a slice: a line that enters starts with the floor (R174). -/
def Home.lmaxOf (h : Home) (line : Nat) : Nat := h.lmax.get h.floor line
/-- A line leaves a slice (R174): which one is free (log 22). -/
def Home.evict (h : Home) (n : Nat) : Home :=
  match h.lmax[Config.victim n % h.lmax.length]? with
  | none => h
  | some p => { h with lmax := h.lmax.filter (·.1 ≠ p.1), floor := max h.floor p.2 }
/-- An access brings a line into its slice, which holds 128 KiB, 1,024 lines, and gives one up where it is full (R2, R174). -/
def Chip.enter (c : Chip) (node pa : Nat) : Chip :=
  let h := c.home node
  if nodeEp node < 0x400 ∨ 0x600 ≤ nodeEp node ∨ h.lmax.any (·.1 == pa / 128) then c
  else
    let h' := if 1024 ≤ h.lmax.length then h.evict c.frees else h
    ({ c with frees := if 1024 ≤ h.lmax.length then c.frees + 1 else c.frees } : Chip).modHome node fun _ => { h' with lmax := h'.lmax.put (pa / 128) h'.floor }
/-- The visibility time of a write to a line of a shared page performed now (R176). -/
def Chip.visTime (e : Env) (c : Chip) (node pa : Nat) : Nat := max ((c.home node).lmaxOf (pa / 128)) e.now + 4
/-- The time that the acknowledgement of a write at a home carries (R177). -/
def Chip.ackTime (e : Env) (c : Chip) (node pa : Nat) : Nat := if nodeEp node < 768 ∨ node = bridgeNode then e.now else c.visTime e node pa
/-- A write performed at a home for a writer: bindings fire, the bytes are written under the interface's key, waiting WADDRs wake. -/
def Chip.homeWrite (e : Env) (c : Chip) (by_ node vi pa : Nat) (d : List Byte) : Chip :=
  let c := (c.enter node pa).noteWrite by_ (c.ackTime e node pa) pa d.length
  let hits := ((c.home node).watches.filter (·.live)).filterMap fun w => (watchHit e c w pa d).map fun r => (w, r)
  let c := hits.foldl (fun c h =>
    let (w, (o, v)) := h
    (c.modHome node fun k => { k with watches := updAll (fun y => y.vi == w.vi && y.ck == w.ck && y.va == w.va) (fun y => { y with live := false }) k.watches }).sendTask
      node { ck := w.ck, vi := w.vi, pc := w.pc, args := [w.a0, v, w.va + w64 o, w64 w.gen] } 0) c
  (c.putKey vi pa d).wake e node pa d.length

/-! ### Scopes (R290, R297) -/

/-- Whether a home lies in a scope of a core (R290). -/
def inScope (ck scope home : Nat) : Bool :=
  let ep := nodeEp home
  let d := nodeDie home
  let clus := if ep < 768 then ep / 192 else (ep - 0x400) / 128
  let row := if ep < 768 then ep % 192 / 16 else 3 * ((ep - 0x400) % 128) / 32
  if home = bridgeNode then decide (9 ≤ scope)
  else match scope with
    | 0 | 1 | 2 => home == coreNode ck
    | 3 => d == dieOf ck && clus == clusOf ck && row == coreNo ck / 16
    | 4 => d == dieOf ck && clus == clusOf ck
    | 5 => d == dieOf ck
    | 6 => d / 4 == dieOf ck / 4
    | _ => true
/-- Host memory lies in HOST and wider scopes, peer memory in GROUP and wider (R290). -/
def inScopeAt (ck scope home pa : Nat) : Bool :=
  if home = bridgeNode then decide ((if (pa - 2 ^ 50) / 2 ^ 46 = 1 then 8 else 9) ≤ scope) else inScope ck scope home
/-- A scope of a core contains a writer (R106, R290). -/
def scopeHas (ck scope by_ : Nat) : Bool :=
  if by_ < unitWriter then inScope ck scope (coreNode by_) else decide ((if by_ = unitWriter then 7 else if by_ = hostWriter then 8 else 9) ≤ scope)
/-- After a FENCE with an acquire kind, fetch no longer keeps a word that a party of its scope has changed visibly (R106). -/
def Chip.keepCode (e : Env) (c : Chip) (ck scope : Nat) (kept : Tbl (Nat × Word)) : Tbl (Nat × Word) :=
  kept.filter fun p => !((c.wrote.get [] (p.2.1 / 4)).any fun w => scopeHas ck scope w.1 && decide (w.2 ≤ e.now))
/-- The smallest scope of a core that contains a home (R298, R299). -/
def smallest (ck home pa : Nat) : Nat := ((List.range 12).find? fun s => inScopeAt ck s home pa).getD 11
/-- The leased lines that an acquire at a scope drops (R294). -/
def Chip.acquire (c : Chip) (ck scope : Nat) : Chip :=
  c.modCore ck fun k => { k with l1 := k.l1.filter fun l =>
    match l.kind with
    | .leased _ => !(decide (7 ≤ scope) || (decide (3 ≤ scope) && inScope ck scope l.home))
    | _ => true }

/-! ### Faults at a receiver (R171, R380 to R384) -/

/-- An entry of the fault buffer is written; what stood there is kept while a page that it asked for must stay in place (R384). -/
def Die.logEntry (d : Die) (now i : Nat) (f : FbEnt) : Tbl FbEnt :=
  let recent (p : Nat × FbEnt) : Bool := decide (p.1 < 1024) || decide (now < p.2.ackAt + 125000)
  let old := (d.fbents.filter fun p => p.1 == i && p.2.migr && decide (now < p.2.ackAt + 125000)).map fun p => (1024 + p.2.token, p.2)
  old.foldl (fun t p => Tbl.put t p.1 p.2) (Tbl.put (d.fbents.filter recent) i f)
/-- Log a PFAULT in the fault buffer of a die: its token, or none where the buffer is full (R381 to R384). -/
def Chip.logFault (e : Env) (c : Chip) (die vi : Nat) (va : W64) (kind side cid : Nat) (ck : Option Nat) (migr : Bool) : Chip × Option Nat :=
  let d := c.die die
  if 1024 ≤ d.fbcount then (c.modDie die fun d => { d with ovf := true }, none)
  else
    let i := ((List.range 1024).find? fun i => !((d.fbents.map fun p => (p.1, p.2.valid)).any fun p => p.1 == i && p.2)).getD 0
    let seq := d.fbseq % (2 ^ 19 - 1) + 1
    let token := die * 2 ^ 29 + i * 2 ^ 19 + seq
    let rival := d.fbents.any fun p => p.2.vi == vi && p.2.va.toNat / 65536 == va.toNat / 65536 && p.2.migr &&
      ((p.2.side == 0 && side == 1) || (p.2.side == 1 && side == 0)) && (p.2.valid || decide (e.now < p.2.ackAt + 125000))
    let hold := migr && rival
    let ent := leBytes 8 (va.toNat % 2 ^ 52) ++
      leBytes 8 (cid + vi * 2 ^ 50 + kind * 2 ^ 56 + side * 2 ^ 59 + bn (migr && !hold) * 2 ^ 61 + bn hold * 2 ^ 62 + 2 ^ 63) ++
      leBytes 8 token ++ leBytes 8 (if hold then e.now + 125000 else 0)
    let c := c.put (bits d.fbbase.toNat 15 25 * 2 ^ 15 + 32 * i) ent
    (c.modDie die fun d => { d with fbseq := seq, fbcount := d.fbcount + 1, fbents := d.logEntry e.now i ⟨token, true, vi, va, side, ck, migr && !hold, 0⟩ }, some token)

/-- The KIND of a fault-buffer entry (R381). -/
def faultKind (a : Act) : Nat :=
  match a with
  | .atomic .. | .lock .. | .lkq => 3
  | .store | .strel .. | .stream .. | .cpwrite .. => 1
  | _ => 0
/-- The answer of a home that does not perform a request (R22, R171, R433, R437, R460). -/
def Chip.refuse (c : Chip) (node : Nat) (q : Req) (code token : Nat) : Chip :=
  if q.host then c.sendExt q (.receiverFault 0 (some ⟨q, code, token⟩))
  else match q.act with
    | .pin .. => c.send node (dispNode (dieOf (coreOf q.src))) .rsp (.pinReply q node .dfetch)
    | .claim .. | .sgrant .. | .publish .. => c.send node (reqFrom q) .rsp (.claimAnswer q .dfetch)
    | .gclaim .. => c.send node (reqCore q) .rsp (.claimAnswer q .groupmiss)
    | .stream .. => c.send node (reqFrom q) .rsp (.streamLine q true)
    | .unpin _ | .unclaim .. | .pref => c
    | _ => c.send node (reqFrom q) .rsp (.receiverFault q.src (some ⟨q, code, token⟩))
/-- Faults of these requests are not logged (R22, R433). -/
def silent (a : Act) : Bool := match a with | .pin .. | .claim .. | .gclaim .. | .sgrant .. | .publish .. | .unpin _ | .unclaim .. | .pref => true | _ => false

/-- SIDE of a fault-buffer entry (R381). -/
def faultSide (q : Req) : Nat := if (reqPeer q).isSome then 2 else if q.host then 1 else if Act.engine q.act then 3 else 0
/-- The source in the list of flights of a request answered RETRY: later requests of its own context alone wait behind it (R383). -/
def retryFrom (q : Req) : Nat := 2 ^ 23 + (if q.host then 0 else q.src)
/-- The access is no core's: an engine's, or a dispatcher's pin, for which FIRST places at slice 0 of the home's die (R29, R168). -/
def noCore (a : Act) : Bool := Act.engine a || (match a with | .pin .. => true | _ => false)
/-- A translation home translates a request, logs or refuses it, holds it, or forwards it (R163 to R173, R297, R382). -/
def translate (e : Env) (c : Chip) (q : Req) : Chip :=
  let h := transNode q.va
  let die := hash21 q.va.toNat
  let ck := coreOf q.src
  let path := !q.host && q.cached && l1Path q.act
  let lkq := match q.act with | .lkq => true | _ => false
  let here (r : Reclass) : Bool := r.vi == q.vi && decide (r.page.toNat ≤ q.va.toNat ∧ q.va.toNat < r.page.toNat + r.size)
  let pend := (c.die die).reclass.any here
  let fault (code : Nat) (migr : Bool) : Chip :=
    if code = 8 ∧ !silent q.act then
      match c.logFault e die q.vi q.va (faultKind q.act) (faultSide q)
          (if q.host then 0xF00 else if (Act.engine q.act) then ck % 768 else ctxId c.group q.src) (if q.host ∨ (Act.engine q.act) then none else some ck) migr with
      | (c, some t) => c.refuse h q code t
      | (c, none) => { c with net := ⟨retryFrom q, h, actCls q.act, e.now + c.reqTicks q 1024, .faultRetry q⟩ :: c.net }
    else c.refuse h q code 0
  match Act.dev q.act with
  | some g =>
    if c.linkGone false then c.refuse h q 0x14 0
    else (match xlatePeer e c q.vi q.va (permNeed q.act) g with
     | .error code => c.refuse h q code 0
     | .ok (home, pa) => c.send (reqFrom q) home (actCls q.act) (evOf { q with home := home, pa := pa }))
  | none =>
  if pend && !lkq then
    c.modDie die fun d => { d with reclass := updFirst here (fun r => { r with reqs := r.reqs ++ [q] }) d.reclass }
  else match xlate e c q.vi q.va (permNeed q.act) (if path then some ck else none) (if q.host || noCore q.act then none else some ck) lkq with
    | .fault code migr => fault code migr
    | .hold o page size at_ =>
      (c.modDie die fun d => { d with reclass := d.reclass ++ [⟨q.vi, page, size, at_, [q], none⟩] }).send h (coreNode o) .req (.flush o q.vi page size die)
    | .ok c home pa lease refill perm =>
      let q := { q with home := home, pa := pa, lease := lease, refill := refill && path, perm := perm }
      let barred : Bool := match q.act with
        | .atomic .. | .lock .. | .lkq => extHost pa
        | .watch .. => true
        | _ => false
      let amo : Bool := match q.act with | .atomic .. => true | _ => false
      if home == bridgeNode && barred then c.refuse h q 9 0
      else if home == bridgeNode && c.linkGone (extHost pa) && !amo then c.refuse h q 0x14 0
      else match q.act with
        | .ldacq s => if inScopeAt ck s home pa then c.send (reqFrom q) home .req (.loadRequest q) else c.send h (reqFrom q) .ctl (.scopeMiss q)
        | .strel s _ => if inScopeAt ck s home pa then c.send (reqFrom q) home .wrb (.storeRequest q) else c.send h (reqFrom q) .ctl (.scopeMiss q)
        | a => c.send (reqFrom q) home (actCls a) (evOf q)

/-! ### The reclassification of a private page (R173) -/


/-- The owner may reply FLUSHACK once no write-back of the page is left (R173). -/
def Chip.flushDone (c : Chip) (ck : Nat) : Chip :=
  let k := c.core ck
  let done := k.flushing.filter fun f => !(k.wbs.any fun w => w.vi == f.vi && decide (f.page.toNat ≤ w.va.toNat ∧ w.va.toNat < f.page.toNat + f.size))
  done.foldl (fun c f => c.send (coreNode ck) (homeNode f.die) .rsp (.flushAck f.die f.vi ⟨f.page, f.inflight⟩))
    (c.modCore ck fun k => { k with flushing := k.flushing.filter fun f => !(done.any fun g => g == f) })
/-- A dirty line leaves the L1: a write-back to its home (R172). -/
def Chip.writeBackLine (c : Chip) (ck : Nat) (l : L1Line) (vol : Bool) : Chip :=
  let s := c.serial
  ((c.next.modCore ck fun k => { k with wbs := k.wbs ++ [⟨s, l.vi, l.va, vol⟩] }).send (coreNode ck) l.home .wrb
    (.writeBack { ck := ck, vi := l.vi, va := l.va, home := l.home, pa := l.pa, data := l.data, serial := s })).markStale fun q =>
      coreOf q.src == ck && q.vi == l.vi && lineOf q.va == l.va
/-- FLUSH at the owner (R173). -/
def flushPage (_e : Env) (c : Chip) (ck vi : Nat) (page : W64) (size die : Nat) : Chip :=
  let k := c.core ck
  let infl := k.wbs.any fun w => w.vol && w.vi == vi && decide (page.toNat ≤ w.va.toNat ∧ w.va.toNat < page.toNat + size)
  let dirty := k.l1.filter fun l => inPage vi page size l && l.kind == .owned true
  let c := dirty.foldl (fun c l => c.writeBackLine ck l false) c
  let c := c.modCore ck fun k => { k with
    l1 := k.l1.filter fun l => !(inPage vi page size l && (match l.kind with | .owned _ => true | _ => false)),
    flushing := k.flushing ++ [⟨vi, page, size, die, infl⟩] }
  ((c.sendWaddrs ck fun q => q.vi == vi && vaIn page size q.va).markStale fun q => q.vi == vi && coreOf q.src == ck && vaIn page size q.va).flushDone ck
/-- FLUSHACK at the translation home: the page is SHARED and the held requests go on in arrival order (R173). -/
def flushAcked (e : Env) (c : Chip) (die vi : Nat) (page : W64) : Chip :=
  match (c.die die).reclass.find? (fun r => r.vi == vi && r.page == page) with
  | none => c
  | some r =>
    let c := (c.modDie die fun d => { d with reclass := d.reclass.filter fun r => !(r.vi == vi && r.page == page) }).shareLeaf e r.leaf
    r.reqs.foldl (fun c q => translate e c q) c
/-- A write-back at its home slice (R172, R173). -/
def writeBackAt (e : Env) (c : Chip) (w : WriteBack) : Chip :=
  (c.homeWrite e w.ck w.home w.vi w.pa w.data).send w.home (coreNode w.ck) .rsp
    (.storeAck { src := w.ck * 8, part := w.serial, vi := w.vi, va := w.va } e.now)

/-! ### Loads at their home (R174, R175, R180, R210) -/

/-- The protection of a request at a scratchpad that is not its core's own (R180). -/
def Chip.remoteOk (c : Chip) (q : Req) (n : Nat) : Option Nat :=
  let ck := nodeCore q.home
  let off := q.pa - sram ck 0
  if coreOf q.src = ck ∧ !q.host then c.protect q.src off n else c.remoteProtect ck off n q.src q.vi
/-- What bars a request at a scratchpad: protection, which a copy was checked against when it began (R180, R202), or, for a copy too,
that its core is OFF (R405). -/
def Chip.homeBar (c : Chip) (q : Req) (n : Nat) : Option Nat :=
  if Act.engine q.act then (if c.isOff (nodeCore q.home) then some 6 else none) else c.remoteOk q n
/-- The full/empty bits of 64 lines as FESTAT reports them (R215). -/
def Chip.festat (c : Chip) (xk ck off vi : Nat) : W64 :=
  let l0 := off / 128
  w64 ((List.range 64).foldl (fun s i =>
    let o := (l0 + i) * 128
    let ok := decide (o + 128 ≤ c.spSize ck) &&
      (if coreOf xk = ck then (c.protect xk o 128).isNone else (c.remoteProtect ck o 128 xk vi).isNone)
    if ok && (c.core ck).fullOver o 128 then s + 2 ^ i else s) 0)
/-- A load whose lines are empty waits at the scratchpad's core (R210). -/
def waitsFull (a : Act) : Bool := match a with | .load | .ldacq _ => true | _ => false
/-- WKQ's answer from the counters of an interface (R450). -/
def Chip.wkq (c : Chip) (now vi level id : Nat) : W64 :=
  let sat (n : Nat) : Nat := min n (2 ^ 25 - 1)
  let mk (st : Nat) (fail closed : Bool) (left done : Nat) : W64 := w64 (st * 2 ^ 62 + bn fail * 2 ^ 61 + bn closed * 2 ^ 60 + sat left * 2 ^ 25 + sat done)
  let v := c.vi vi
  if level = 0 then
    match v.launches.find? (fun l => l.lid == id && l.remembered) with
    | none => w64 (3 * 2 ^ 62)
    | some l =>
      let total := (l.gx + 1) * (l.gy + 1) * (l.gz + 1)
      mk (if l.st = .complete ∧ l.vis ≤ now ∧ l.stores = [] then (if l.cancelled then 2 else 1) else 0) l.fail true (total - l.retired) l.retired
  else
    match v.levels.find? (fun l => l.kind == level && l.id == id) with
    | none => w64 (3 * 2 ^ 62)
    | some l => mk (if l.complete ∧ l.vis ≤ now ∧ l.stores = [] then (if l.cancelled then 2 else 1) else 0) l.fail l.closed (l.members - l.done) l.done
/-- The parts of a load's operation that read scratchpads: part, core, offset, length. A gather or tile load is performed only when
every line it reads is full (R210). -/
def Chip.groupOf (c : Chip) (q : Req) : List (Nat × Nat × Nat × Nat) :=
  let parts := if q.host then [] else ((c.ctx q.src).ops.filter (·.id == q.op)).flatMap (·.parts)
  let l := parts.filterMap fun p => if space p.q.va = 1 then (c.spParse p.q.va p.q.n).map fun o => (p.id, o.1, o.2, p.q.n) else none
  if l.any (·.1 == q.part) then l else [(q.part, nodeCore q.home, q.pa - sram (nodeCore q.home) 0, q.n)]
/-- All of them have reached their cores, the given request among them, and every line is full. -/
def Chip.groupFull (c : Chip) (q : Req) : Bool :=
  (c.groupOf q).all fun p => (p.1 == q.part || (c.core p.2.1).heldLoads.any (·.part == p.1)) && (c.core p.2.1).fullOver p.2.2.1 p.2.2.2
/-- A load of a scratchpad is performed, with the held parts of its operation (R210). -/
def Chip.groupGo (e : Env) (c : Chip) (q : Req) : Chip :=
  let mates := (c.groupOf q).filterMap fun p => if p.1 = q.part then some q else (c.core p.2.1).heldLoads.find? (·.part == p.1)
  mates.foldl (fun c m =>
    let c := c.modCore (nodeCore m.home) fun k => { k with heldLoads := k.heldLoads.filter (·.part ≠ m.part) }
    match (if Act.engine m.act then none else c.remoteOk m m.n) with
    | some code => c.refuse m.home m code 0
    | none =>
      if c.badAt m.pa m.n then c.refuse m.home m 0x10 0
      else
        let d := rdN e c m.pa m.n
        if m.host then c.sendExt m (.loadReply m d [] 0) else c.send m.home (reqFrom m) .rsp (.loadReply m d [] 0)) c
/-- A request that reads, performed at its home (R171, R175, R180, R210, R215, R216, R447, R450). -/
def loadAt (e : Env) (c : Chip) (q : Req) (claimq : Chip → Req → W64) : Chip :=
  let reply (c : Chip) (d : List Byte) (fill : List Byte) (t : Nat) : Chip :=
    if q.host then c.sendExt q (.loadReply q d fill t) else c.send q.home (reqFrom q) .rsp (.loadReply q d fill t)
  match q.act with
  | .wkq l id => reply c (leBytes 8 (c.wkq e.now q.vi l id).toNat) [] 0
  | .festat =>
    let ck := nodeCore q.home
    reply c (leBytes 8 (c.festat q.src ck (q.pa - sram ck 0) q.vi).toNat) [] 0
  | .claimq => if c.badAt q.pa 128 then c.refuse q.home q 0x10 0 else reply c (leBytes 8 (claimq c q).toNat) [] 0
  | _ =>
    if nodeIsCore q.home then
      let ck := nodeCore q.home
      match c.homeBar q q.n with
      | some code => c.refuse q.home q code 0
      | none =>
        if c.badAt q.pa q.n then c.refuse q.home q 0x10 0 else
        match q.act with
        | .waddr v => if w64 (leNat (rdN e c q.pa 8)) ≠ v then reply c [] [] 0
                      else c.modHome q.home fun h => { h with waddrs := h.waddrs ++ [q] }
        | a => if waitsFull a && !c.groupFull q then c.modCore ck fun k => { k with heldLoads := k.heldLoads ++ [q] }
               else c.groupGo e q
    else
      let line := q.pa / 128 * 128
      let c := c.enter q.home q.pa
      if c.badAt line 128 then c.refuse q.home q 0x10 0 else
      match q.act with
      | .waddr v =>
        if q.refill then reply c [] (c.homeRead e q.vi line 128) 0
        else if w64 (leNat (c.homeRead e q.vi q.pa 8)) ≠ v then reply c [] [] 0
        else if 64 ≤ (c.home q.home).waddrs.length then c.send q.home (reqFrom q) .rsp (.waddrRetry q) (e.now + c.reqTicks q retryTicks)
        else c.modHome q.home fun h => { h with waddrs := h.waddrs ++ [q] }
      | a =>
        if q.refill then reply c (c.homeRead e q.vi q.pa q.n) (c.homeRead e q.vi line 128) 0
        else if q.cached && l1Path a && q.home ≠ bridgeNode && !q.host then
          let t := e.now + q.lease
          reply (c.modHome q.home fun h => { h with lmax := h.lmax.put (q.pa / 128) (max (h.lmaxOf (q.pa / 128)) t) })
            (c.homeRead e q.vi q.pa q.n) (c.homeRead e q.vi line 128) t
        else reply c (c.homeRead e q.vi q.pa q.n) [] 0
/-- The source in the list of flights of a load that an empty line held and that is released: it is performed in this cycle (R210, R211). -/
def releasedFrom (q : Req) : Nat := 2 ^ 22 + reqFrom q
/-- The loads held at a core whose lines are full now are released, to be performed in step 4 of this cycle (R210, R211). -/
def Chip.releaseLoads (now : Nat) (c : Chip) (ck : Nat) : Chip :=
  (c.core ck).heldLoads.foldl (fun c q => if c.groupFull q then
      (c.modCore ck fun k => { k with heldLoads := k.heldLoads.filter (·.part ≠ q.part) }).send (releasedFrom q) q.home .req (.loadRequest q) now
    else c) c
/-- Lines of a core become full, and the loads that waited for them are released (R209, R210). -/
def Chip.fillLines (now : Nat) (c : Chip) (ck off n : Nat) : Chip := (c.modCore ck fun k => k.setFull off n).releaseLoads now ck

/-! ### The copy engine and the stream of a commit as their answers arrive (R203, R206, R207, R437) -/

/-- The lines that a copy has written, and will write no more since it stops here, are full, once the writes that it has sent are
performed (R203, R206, R213). -/
def Chip.markTouched (e : Env) (c : Chip) (ck op : Nat) : Chip :=
  match (c.core ck).copies.find? (·.op == op) with
  | none => c
  | some n =>
    if !n.out.isEmpty then c
    else (n.touched.foldl (fun c p => c.fillLines e.now p.1 p.2 128) c).modCopy ck op fun x => { x with touched := [] }
/-- A request of a copy is no longer out; a copy that has stopped has its last lines full with the last of them (R203). -/
def Chip.copyBack (e : Env) (c : Chip) (ck op part : Nat) (f : CopyE → CopyE) : Chip :=
  let c := c.modCopy ck op fun x => { f x with out := x.out.filter (· ≠ part) }
  if (c.core ck).copies.any fun n => n.op == op && n.moved then c.markTouched e ck op else c
/-- A copy stops at a fault (R206). -/
def Chip.copyFail (e : Env) (c : Chip) (ck op status : Nat) : Chip :=
  (c.markTouched e ck op).modCopy ck op fun x => { x with moved := true, status := if x.status = 0 then status else x.status }
/-- A copy ends: CPSTAT shows it DONE, and cp falls. A failure of its completion word is the status of a copy that ended OK (R207). -/
def Chip.copyEnd (c : Chip) (ck op status vt : Nat) : Chip :=
  match (c.core ck).copies.find? (·.op == op) with
  | none => c
  | some n =>
    (c.modCore ck fun k => { k with copies := k.copies.filter (·.op ≠ op) }).modCtx n.ctx fun x =>
      { x with ops := x.ops.filter (·.id ≠ op), vismax := max x.vismax (max n.vt vt),
               cpStat := updFirst (·.id == n.id) (fun s => { s with state := 3, status := if n.status = 0 then status else n.status }) x.cpStat }
/-- Source bytes arrive at the engine (R202). -/
def Chip.copyGot (e : Env) (c : Chip) (q : Req) (d : List Byte) : Chip :=
  c.copyBack e (coreOf q.src) q.op q.part fun x => { x with buf := if x.moved then x.buf else x.buf ++ d }
/-- A write of a copy has been performed: part of its payload, or its completion word (R207). -/
def Chip.copyAcked (e : Env) (c : Chip) (q : Req) (vt : Nat) : Chip :=
  let ck := coreOf q.src
  match (c.core ck).copies.find? (·.op == q.op) with
  | none => c
  | some n =>
    if n.word then c.copyEnd ck q.op 0 vt
    else c.copyBack e ck q.op q.part fun x => { x with vt := max x.vt vt }
/-- An access of a copy has been refused (R206, R207). -/
def Chip.copyRefused (e : Env) (c : Chip) (q : Req) (code : Nat) : Chip :=
  let ck := coreOf q.src
  match (c.core ck).copies.find? (·.op == q.op) with
  | none => c
  | some n =>
    if n.word then c.copyEnd ck q.op code 0
    else (c.copyFail e ck q.op code).copyBack e ck q.op q.part id
/-- Requests on their way, or held at a translation home, that are given up (R208, R440). -/
def Chip.dropReqs (c : Chip) (p : Req → Bool) : Chip :=
  let hit (f : Flight) : Bool := match f.ev with | .translate q | .faultRetry q | .loadRequest q | .storeRequest q | .streamLine q false => p q | _ => false
  { c with net := c.net.filter fun f => !hit f
           dies := c.dies.map fun d => (d.1, { d.2 with reclass := d.2.reclass.map fun r => { r with reqs := r.reqs.filter fun q => !p q } }) }
/-- The copies of a context stop at once, without completion words (R208). -/
def Chip.stopCopies (c : Chip) (xk : Nat) : Chip :=
  ((c.dropReqs fun q => q.src == xk && !q.host && (match q.act with | .cpread _ | .cpwrite .. => true | _ => false)).modCore (coreOf xk) fun k =>
    { k with copies := k.copies.filter (·.ctx ≠ xk) }).modCtx xk fun x =>
    { x with ops := x.ops.filter fun o => match o.kind with | .copy _ => false | _ => true }
/-- A tile of a commit changed. -/
def Chip.modTile (c : Chip) (xk slot : Nat) (f : CTile → CTile) : Chip :=
  c.modCtx xk fun x => { x with commit := x.commit.map fun m => { m with tiles := m.tiles.modify slot f } }
/-- The home of a tile publishes once GTIME has reached the stream's latest visibility time (R303, R437, R438). -/
def Chip.askPublish (c : Chip) (xk slot : Nat) : Chip :=
  let x := c.ctx xk
  match x.unit, x.commit.bind fun m => (m.tiles[slot]?).map fun t => (m, t) with
  | some u, some (m, t) => c.send t.home t.home .cmt
      (.publish { src := xk, part := m.id, vi := x.vi, act := .publish u.u u.tx u.ty u.tz slot, va := t.head, n := 128, home := t.home, pa := t.pa }) t.vt
  | _, _ => c
/-- The primary may publish: its stream is performed and every secondary has published (R439). -/
def Commit.primaryReady (m : Commit) : Bool :=
  match m.tiles with
  | [] => false
  | t :: r => t.granted && t.acked == t.tlines && r.all (·.published)
/-- A line of a commit's stream has been performed at its home (R437). -/
def Chip.streamAcked (c : Chip) (q : Req) (vt : Nat) : Chip :=
  match q.act, (c.ctx q.src).commit with
  | .stream _ slot _, some m =>
    if m.id ≠ q.part then c
    else
      let c := c.modTile q.src slot fun k => { k with acked := k.acked + 1, vt := max k.vt vt }
      match (c.ctx q.src).commit with
      | some m =>
        if (m.tiles[slot]?).all (fun t => t.acked < t.tlines) then c
        else if slot ≠ 0 then c.askPublish q.src slot
        else if m.primaryReady then c.askPublish q.src 0 else c
      | none => c
  | _, _ => c

/-- A store of the core to the line of a request has not been acknowledged: an older copy of the line must not be installed (R184). -/
def Chip.storesOut (c : Chip) (ck vi : Nat) (va : W64) : Bool :=
  (List.range 8).any fun i => (c.ctx (ck * 8 + i)).vi == vi && (c.ctx (ck * 8 + i)).ops.any fun o =>
    (o.ctr == .st || o.kind == .atomic) && o.parts.any fun p => lineOf p.q.va == lineOf va
/-- Lines of a core's L1: what the scratchpad leaves of its 320 KiB (R2, R160). -/
def Chip.l1Lines (c : Chip) (ck : Nat) : Nat := (0x50000 - c.spSize ck) / 128
/-- A line leaves the L1 by eviction: which one is free, but for locked lines; a dirty line is written back of the core's own
accord, and the WADDRs that wait on it at the owner go to its home (R161, R172, R216, log 23). -/
def Chip.evictOne (c : Chip) (ck : Nat) : Chip :=
  let cand := (c.core ck).l1.filter fun l => match l.kind with | .locked _ => false | _ => true
  match cand[Config.victim c.frees % cand.length]? with
  | none => c
  | some l =>
    let c := ({ c with frees := c.frees + 1 } : Chip).modCore ck fun k => { k with l1 := k.l1.filter (· != l) }
    (if l.kind = .owned true then c.writeBackLine ck l true else c).sendWaddrs ck fun q => q.vi == l.vi && lineOf q.va == l.va
/-- Lines are evicted until at most `n` are left that are not locked. -/
def Chip.fitL1 (c : Chip) (ck n : Nat) : Chip :=
  let un (l : L1Line) : Bool := match l.kind with | .locked _ => false | _ => true
  (List.range (((c.core ck).l1.filter un).length - n)).foldl (fun c _ => c.evictOne ck) c
/-- A locked line joins a core's L1, which gives up others where it is full (R2, R161, R326). -/
def Chip.installLocked (c : Chip) (ck : Nat) (l : L1Line) : Chip :=
  let c := c.modCore ck fun k => { k with l1 := l :: k.l1 }
  let locked := ((c.core ck).l1.filter fun m => match m.kind with | .locked _ => true | _ => false).length
  c.fitL1 ck (c.l1Lines ck - locked)
/-- Install a line in a core's L1, which makes room for it where it is full (R161, R172, R175). -/
def Chip.install (c : Chip) (ck : Nat) (l : L1Line) : Chip :=
  let c := c.modCore ck fun k => { k with l1 := k.l1.filter fun m => !(m.vi == l.vi && m.va == l.va && (match m.kind with | .locked _ => false | _ => true)) }
  let locked := ((c.core ck).l1.filter fun m => match m.kind with | .locked _ => true | _ => false).length
  (c.fitL1 ck (c.l1Lines ck - 1 - locked)).modCore ck fun k => { k with l1 := l :: k.l1 }
/-- A pin is released at its home (R29, R440). -/
def Chip.unpin (c : Chip) (xk vi : Nat) (p : Pin) : Chip :=
  c.next.send (coreNode (coreOf xk)) p.home .cmt
    (.claimRelease { src := xk, part := c.serial, vi := vi, act := .unpin p.bufB, va := p.head, n := 128, home := p.home, pa := p.pa })
/-- The releases of pins of a context that are on their way: the report of its work waits for them (R152, R418, R457). -/
def Chip.unpinsOut (c : Chip) (xk : Nat) : List Nat :=
  c.net.filterMap fun f => match f.ev with
    | .claimRelease q => if q.src = xk ∧ !q.host then (match q.act with | .unpin _ => some q.part | _ => none) else none
    | _ => none
/-- The leased lines of a pinned buffer leave the pinning core's L1 (R303). -/
def Chip.dropLeased (c : Chip) (ck vi : Nat) (buf : W64) (lines : Nat) : Chip :=
  c.modCore ck fun k => { k with l1 := k.l1.filter fun l =>
    !(l.vi == vi && decide (buf.toNat ≤ l.va.toNat ∧ l.va.toNat < buf.toNat + 128 * lines) && (match l.kind with | .leased _ => true | _ => false)) }
/-- A reply arrives at its core (R149, R171, R173, R175, R309). An RPIN whose copy holds 8 pins of RPIN by now gives its pin back and
ends in NOSLOT (R448, log 106). -/
def loadReplied (e : Env) (c : Chip) (q : Req) (data fill : List Byte) (expiry : Nat) : Chip :=
  let xk := q.src
  let ck := coreOf xk
  let x := c.ctx xk
  if q.refill && q.stale then
    (if x.partOut q.op q.part ∨ q.act = .pref ∨ x.pend.id = q.part then c.request { q with refill := false, stale := false, home := 0, pa := 0 } else c)
  else
    let inst (c : Chip) : Chip :=
      if fill.isEmpty then c
      else if q.refill then
        (if (c.core ck).l1.any (fun m => m.vi == q.vi && m.va == lineOf q.va && (match m.kind with | .owned _ => true | _ => false)) then c
         else c.install ck ⟨q.vi, lineOf q.va, q.home, q.pa / 128 * 128, .owned false, fill, q.perm⟩)
      else if c.storesOut ck q.vi q.va || decide (expiry ≤ e.now) then c
      else c.install ck ⟨q.vi, lineOf q.va, q.home, q.pa / 128 * 128, .leased expiry, fill, q.perm⟩
    let own (c : Chip) (d : List Byte) : List Byte :=
      match (c.core ck).l1.find? (fun m => m.vi == q.vi && m.va == lineOf q.va && (match m.kind with | .owned _ => q.refill | _ => false)) with
      | some l => l.get q.va q.n
      | none => d
    match q.act with
    | .cpread _ => c.copyGot e q data
    | .pref => inst c
    | .waddr v =>
      let c := inst c
      (if q.refill then
        (if w64 (leNat (own c (leBytes 8 v.toNat))) ≠ v then c.answer xk q.part (.value 0 e.now)
         else if x.pend.id = q.part then c.modHome (coreNode ck) fun h => { h with waddrs := h.waddrs ++ [q] } else c)
       else c.answer xk q.part (.value 0 e.now))
    | .rpin _ =>
      let v := w64 (leNat data)
      let pin : Pin := ⟨q.va, q.home, q.pa, v, expiry % 2 == 1, true⟩
      let got : Bool := decide (2 ^ 51 ≤ v.toNat)
      if x.partOut q.op q.part then
        let dst := (x.ops.find? (·.id == q.op)).elim .none (·.dst)
        let full := got && decide (8 ≤ (x.pins.filter (·.rpin)).length)
        let c := if full then c.unpin xk q.vi pin
          else if got then (c.modCtx xk fun x => { x with pins := x.pins ++ [pin] }).dropLeased ck q.vi v (expiry / 2) else c
        (c.deliver xk dst 0 (if full then leBytes 8 1 else data)).modCtx xk fun x => (x.dropPart q.op q.part 0).settle q.op
      else if got then c.unpin xk q.vi pin else c
    | .festat | .hgive _ | .hrev | .hchk | .watch .. => (c.amoDone ck q.part).answer xk q.part (.value (w64 (leNat data)) e.now)
    | .store =>
      let c := inst c
      if x.partOut q.op q.part then
        let mine (m : L1Line) : Bool := m.vi == q.vi && m.va == lineOf q.va && (match m.kind with | .owned _ => true | _ => false)
        let c := ((c.modCore ck fun k => { k with l1 := updAll mine (fun m => { m.put q.va q.data with kind := .owned true }) k.l1 }).noteWrite ck e.now q.pa q.data.length).wakeOwner e.now ck q.vi q.va
        let dst := (x.ops.find? (·.id == q.op)).elim .none (·.dst)
        let c := match dst with | .x .. => c.deliver xk dst 0 (leBytes 8 e.now) | _ => c
        c.modCtx xk fun x => (x.dropPart q.op q.part e.now).settle q.op
      else c
    | .ldacq s =>
      if x.partOut q.op q.part then
        let dst := (x.ops.find? (·.id == q.op)).elim .none (·.dst)
        ((c.acquire ck s).deliver xk dst 0 data).modCtx xk fun x => (x.dropPart q.op q.part 0).settle q.op
      else c
    | _ =>
      let c := inst c
      match (x.ops.find? (·.id == q.op)).bind (fun o => (o.parts.find? (·.id == q.part)).map fun p => (o, p)) with
      | none => c
      | some (o, p) => ((c.amoDone ck q.part).deliver xk o.dst p.off (own c data)).modCtx xk fun x => (x.dropPart q.op q.part 0).settle q.op

/-! ### Stores at their home (R176, R177, R180, R214) -/

/-- A core whose write has been performed does not keep an older copy of the line that is on its way to it (R184, R292). -/
def Chip.dropFills (c : Chip) (q : Req) : Chip :=
  { c with net := c.net.map fun f => match f.ev with
    | .loadReply r d _ t => if coreOf r.src == coreOf q.src && !q.host && r.vi == q.vi && lineOf r.va == lineOf q.va && !r.refill
        then { f with ev := .loadReply r d [] t } else f
    | _ => f }

/-- A write performed at its home (R176, R180, R214, R297). -/
def storeAt (e : Env) (c : Chip) (q : Req) : Chip :=
  let ack (c : Chip) (t : Nat) : Chip :=
    if q.host then c.sendExt q (.storeAck q t) else c.send q.home (reqFrom q) .rsp (.storeAck q t)
  if q.refill then c.send q.home (reqFrom q) .rsp (.loadReply q [] (c.homeRead e q.vi (q.pa / 128 * 128) 128) 0)
  else if nodeIsCore q.home then
    let ck := nodeCore q.home
    let off := q.pa - sram ck 0
    let n := match q.act with | .mkfull l | .mkempty l => l | _ => q.n
    match c.homeBar q n with
    | some code => c.refuse q.home q code 0
    | none =>
      match q.act with
      | .cpwrite _ full =>
        let c := c.putSp e ck off q.data
        ack (if full then c.fillLines e.now ck (off / 128 * 128) 128 else c) e.now
      | .mkfull l => ack (c.fillLines e.now ck off l) e.now
      | .mkempty l => ack (c.modCore ck fun k => k.setEmpty off l) e.now
      | _ => ack (c.putSp e ck off q.data) e.now
  else
    let c := c.enter q.home q.pa
    let t := c.ackTime e q.home q.pa
    let stream : Bool := match q.act with | .stream .. => true | _ => false
    if stream && c.badAt q.pa q.n then c.refuse q.home q 0x10 0
    else
      let c := c.homeWrite e (reqWriter q) q.home q.vi q.pa q.data
      ack (if (Act.engine q.act) then c else c.dropFills q) t
/-- The core's L1 copy of a line that its store has changed at the home: a leased copy, or the locked line of the store's context;
while another of the core's stores to the line is out, a leased copy leaves the L1 instead (R176, R292, R326, log 93). -/
def Chip.updateL1 (c : Chip) (q : Req) : Chip :=
  let ck := coreOf q.src
  let mine (m : L1Line) : Bool := m.vi == q.vi && m.va == lineOf q.va
  let leased (m : L1Line) : Bool := mine m && (match m.kind with | .leased _ => true | _ => false)
  let out := c.storesOut ck q.vi q.va
  let kept (l : List L1Line) : List L1Line := if out then l.filter (fun m => !leased m) else l
  c.modCore ck fun k => { k with l1 := updAll (fun m => leased m || (mine m && m.kind == .locked q.src)) (fun m => m.put q.va q.data) (kept k.l1) }
/-- A store of a context that has ended is acknowledged, or a pin released: the records and levels that its work belongs to wait for its
visibility time in place of it, and so do STRELs that its end has left (R57, R152, R310, R443). -/
def Chip.storeEnded (c : Chip) (part vt : Nat) : Chip :=
  let left (l : List Nat) : List Nat := l.filter (· ≠ part)
  let more (l : List Nat) (t : Nat) : Nat := if l.contains part then max t vt else t
  { c with
    cores := c.cores.map fun p => (p.1, if p.2.late.isEmpty then p.2 else
      { p.2 with late := p.2.late.map fun w => { w with vis := more w.stores w.vis, stores := left w.stores } })
    queues := c.queues.map fun p => (p.1, { p.2 with
      owed := p.2.owed.map fun o => { o with at_ := more o.stores o.at_, stores := left o.stores }, vis := more p.2.stores p.2.vis, stores := left p.2.stores })
    vis := c.vis.map fun p => (p.1, { p.2 with
      launches := p.2.launches.map fun l => { l with vis := more l.stores l.vis, stores := left l.stores }
      levels := p.2.levels.map fun l => { l with vis := more l.stores l.vis, stores := left l.stores } }) }
/-- An acknowledgement arrives at its core (R149, R177, R186, R214). -/
def storeAcked (e : Env) (c : Chip) (q : Req) (vt : Nat) : Chip :=
  let xk := q.src
  match q.act with
  | .mkfull _ | .mkempty _ => c.answer xk q.part (.value 0 vt)
  | .cpwrite .. => c.copyAcked e q (if q.home = bridgeNode then max vt e.now else vt)
  | .stream .. => c.streamAcked q (if q.home = bridgeNode then max vt e.now else vt)
  | _ =>
    if q.op = 0 then (c.wbAcked (coreOf xk) q.part).flushDone (coreOf xk)
    else
      let x := c.ctx xk
      if x.partOut q.op q.part then
        let vt := if q.home = bridgeNode then max vt e.now else vt
        let dst := (x.ops.find? (·.id == q.op)).elim .none (·.dst)
        let c := match dst with | .x .. => c.deliver xk dst 0 (leBytes 8 vt) | _ => c
        (c.modCtx xk fun x => (x.dropPart q.op q.part vt).settle q.op).updateL1 q
      else c.storeEnded q.part vt

/-! ### Scope misses (R297 to R300) -/

/-- A scope-miss message at the issuing core: an LDACQ is sent again at the wider scope, an STREL by a handler run. A repair that finds
no handler context idle waits apart from the handler queue, whose limit does not hold for it (R298, R299, R348, log 104). -/
def scopeMissed (_e : Env) (c : Chip) (q : Req) : Chip :=
  let ck := coreOf q.src
  let s := smallest ck q.home q.pa
  match q.act with
  | .ldacq _ => (c.count q.vi fun k => { k with scopemiss := k.scopemiss + 1 }).request { q with act := .ldacq s, home := 0, pa := 0 }
  | .strel _ t => c.modCore ck fun k => { k with repairs := k.repairs ++ [{ q with act := .strel s t, home := 0, pa := 0 }] }
  | _ => c

/-! ### Receiver faults and upcalls (R171, R376 to R379, R382, R460) -/

/-- A refusal arrives: it joins the refused set, or answers the instruction that stalls on it (R171, R347, R460). The
fault token of a PFAULT enters the notice table (R379). -/
def refusalArrives (e : Env) (c : Chip) (xk : Nat) (r : Refused) : Chip :=
  let x := c.ctx xk
  let q := r.q
  if (Act.engine q.act) then c.copyRefused e q r.code else
  let c := (c.amoDone (coreOf xk) q.part).modCore (coreOf xk) fun k => { k with ghosts := k.ghosts.filter fun g => g.w.eid ≠ q.part || g.holds.isSome || g.asked }
  let note (c : Chip) : Chip := if r.code = 8 ∧ r.token ≠ 0 ∧ (c.core (coreOf xk)).notices.length < 64 then
      c.modCore (coreOf xk) fun k => { k with notices := k.notices ++ [⟨r.token, ctxNo xk, none, none⟩] } else c
  if q.op ≠ 0 then
    (if x.partOut q.op q.part then
       let c := (note c).modCtx xk fun x => (x.refusePart q.op q.part r.code r.token).settle q.op
       (c.groupOf q).foldl (fun c p => c.releaseLoads e.now p.2.1) c
     else c.storeEnded q.part 0)
  else c.answer xk q.part (.refused r.code q.va)
/-- The upcall block of a context, when it lies in its run (R376). -/
def Chip.upcallBlock (c : Chip) (xk : Nat) : Option Nat :=
  let x := c.ctx xk
  if x.upcallvec.toNat = 0 ∨ x.upcallvec.toNat % 128 ≠ 0 then none
  else if c.inRun xk x.upcallvec 16512 then c.ownOff xk x.upcallvec 16512 else none
/-- The conditions of R376 for a PFAULT to become an upcall. -/
def Chip.wantsUpcall (c : Chip) (xk : Nat) : Bool :=
  let x := c.ctx xk
  !x.priv && ctxNo xk < 6 && (c.upcallBlock xk).isSome && (List.range 4).all (fun n => x.lpc.get 0 n == 0) &&
  (x.refusedOps.flatMap (·.refused)).all (fun r => r.code ≠ 8 || (c.core (coreOf xk)).notices.any (fun n => n.token == r.token && n.ctx == ctxNo xk))
/-- A fault is taken as a trap: a notice for a token that no block holds finds no entry any more (R379). -/
def Chip.dropNotices (c : Chip) (xk : Nat) : Chip :=
  c.modCore (coreOf xk) fun k => { k with notices := k.notices.filter fun n => n.ctx ≠ ctxNo xk || n.block.isSome }
/-- The context stops at the boundary after a refusal: the trap of the earliest access, or the upcall (R171, R375, R376). -/
def receiverStop (_e : Env) (c : Chip) (xk : Nat) : Chip :=
  let x := c.ctx xk
  match x.earliest with
  | none => c
  | some r =>
    let tval := r.p.q.va
    if r.code = 8 ∧ c.wantsUpcall xk then c.modCtx xk fun x => { x with upcallDue := true }
    else (c.dropNotices xk).modCtx xk fun x => x.tellAll.take true r.code x.pc tval
/-- The refused part of an operation with the lowest address, whose code and token its replay entry has (R377). -/
def Op.leadPart (o : Op) : Option RPart :=
  o.refused.foldl (fun (a : Option RPart) p => match a with
      | none => some p
      | some b => if p.p.q.va.toNat < b.p.q.va.toNat then some p else some b) none
/-- The replay entry of a refused operation (R377). The model's own encoding of the access is a key into the package's list
of refused operations, written into bytes 16 to 23 (log 12). -/
def replayEntry (o : Op) (key : Nat) : List Byte :=
  match o.leadPart with
  | none => leBytes 128 0
  | some r => leBytes 4 (if r.code = 8 then r.token else 0) ++ leBytes 4 r.code ++ leBytes 8 r.p.q.va.toNat ++ leBytes 8 key ++ leBytes 104 0
/-- Store refused operations under keys: the entries' bytes and the package that holds them. -/
def Chip.storeReplays (c : Chip) (l : List Op) : Chip × List Byte :=
  l.foldl (fun (a : Chip × List Byte) o => ({ a.1.next with replays := a.1.replays ++ [(a.1.serial, o)] }, a.2 ++ replayEntry o a.1.serial)) (c, [])
/-- The operations that `n` replay entries name (R389, R401); an entry that names another interface's is none (R11). -/
def Chip.loadReplays (c : Chip) (vi : Nat) (d : List Byte) (n : Nat) : List Op :=
  (List.range n).filterMap fun i => (c.replays.find? fun p => p.1 == wordAt d (16 * i + 2) && p.2.refused.all (·.p.q.vi == vi)).map (·.2)
/-- The notices of a block: raise NDONE, set ERR, raise EC[NCTR] (R379). -/
def Chip.applyNotice (e : Env) (c : Chip) (ck block : Nat) (err : Bool) (raise_ : Chip → Nat → Nat → Chip) : Chip :=
  let a := sram ck block
  let nd := leNat (rdN e c (a + 0x38) 8)
  let n := bits (leNat (rdN e c (a + 8) 8)) 0 5
  let v := nd / 65536 * 65536 + (nd + 1) % 65536
  raise_ (c.putSp e ck (block + 0x38) (leBytes 8 (if err && !bit v 16 then v + 65536 else v))) ck n
/-- The upcall is taken once ld, st, cp and mx are 0 (R378). -/
def takeUpcall (e : Env) (c : Chip) (xk : Nat) (raise_ : Chip → Nat → Nat → Chip) : Chip :=
  let x := c.ctx xk
  let ck := coreOf xk
  match c.upcallBlock xk, x.earliest with
  | some b, some r =>
    if r.code ≠ 8 ∨ !c.wantsUpcall xk ∨ (c.protect xk b 16512).isSome then (c.dropNotices xk).modCtx xk fun x => { x.tellAll.take true r.code x.pc r.p.q.va with upcallDue := false }
    else
      let ops := (x.tellAll.replay.filter fun o => match o.kind with | .msg _ => false | _ => true).take 128
      let (c, ents) := c.storeReplays ops
      let npf := (ops.filter fun o => o.leadPart.any (·.code == 8)).length
      let info := bn (x.fmt.isSome || x.pendPfx) * 2 ^ 40 + r.code * 2 ^ 32 + (match x.fmt with | some w => w.toNat | none => if x.pendPfx then x.pfxsave.toNat % 2 ^ 32 else 0)
      let c := c.putSp e ck (b + 0x10) (leBytes 8 x.pc.toNat ++ leBytes 8 r.p.q.va.toNat ++ leBytes 8 info ++ leBytes 8 (x.getX 31).toNat ++
        leBytes 8 (ops.length + npf * 256) ++ leBytes 8 0)
      let c := c.putSp e ck (b + 0x80) ents
      let toks := (ops.flatMap (·.refused)).map (·.token)
      let got := (c.core ck).notices.filter fun n => toks.contains n.token && n.ctx == ctxNo xk && n.got.isSome
      let mine (n : NoticeE) : Bool := toks.contains n.token && n.ctx == ctxNo xk
      let c := c.modCore ck fun k => { k with notices := updAll mine (fun n => { n with block := some b }) (k.notices.filter fun n => !(mine n && n.got.isSome)) }
      let c := got.foldl (fun c n => c.applyNotice e ck b (n.got.getD false) raise_) c
      c.modCtx xk fun y => { (y.setX 31 x.upcallvec) with
        replay := [], replaying := false, upcallvec := 0, pendPfx := false, fmt := none, fromPfx := false, upcallDue := false, inUpcall := true,
        pfxsave := (match x.fmt with | some w => w64 w.toNat | none => x.pfxsave),
        wait := .free, pend := {}, commit := none, st := .ready, stamp := y.stamp + 1, pc := w64 (leNat (rdN e c (sram ck b) 8)) }
  | _, _ => c.modCtx xk fun x => { x with upcallDue := false }
/-- A notice of the translation home (R379). -/
def noticeAt (e : Env) (c : Chip) (ck token : Nat) (err : Bool) (raise_ : Chip → Nat → Nat → Chip) : Chip :=
  match (c.core ck).notices.find? (·.token == token) with
  | none => c
  | some n =>
    match n.block with
    | some b => (c.modCore ck fun k => { k with notices := k.notices.filter (·.token ≠ token) }).applyNotice e ck b err raise_
    | none => c.modCore ck fun k => { k with notices := updFirst (·.token == token) (fun n => { n with got := some err }) k.notices }
/-- FBACK (R382, R383). -/
def fbackAt (e : Env) (c : Chip) (die : Nat) (v : W64) : Chip :=
  let token := bits v.toNat 0 32
  let err := bit v.toNat 32
  let d := c.die die
  match d.fbents.find? (fun p => p.2.valid && p.2.token == token) with
  | none => c
  | some (i, en) =>
    let a := bits d.fbbase.toNat 15 25 * 2 ^ 15 + 32 * i
    let w := leNat (rdN e c (a + 8) 8)
    let low := d.ovf && decide (d.fbcount - 1 < d.wm)
    let c := (c.put (a + 8) (leBytes 8 (w - bits w 63 1 * 2 ^ 63))).modDie die fun d => { d with
      fbcount := d.fbcount - 1, fbents := d.fbents.put i { en with valid := false, ackAt := e.now },
      ovf := d.ovf && !low, lowint := d.lowint || low, fbirq := d.fbirq + bn low }
    match en.ck with
    | some ck => c.send (homeNode die) (coreNode ck) .ctl (.notice ck token err)
    | none => c

/-! ### TLBINV (R398) -/

/-- INVAL at a translation home: the owner's lines of the private pages concerned are written back and dropped, and the
reply carries the home's GTIME (R398). -/
def invalAt (e : Env) (c : Chip) (die vi : Nat) (all : Bool) (va : W64) (by_ : Option Nat) : Chip :=
  let c := c.dropWalks die vi all va
  let hit (a : W64) : Bool := if all then hash21 a.toNat == die else a.toNat / 2 ^ 21 == va.toNat / 2 ^ 21
  let c := c.cores.foldl (fun c p => c.flushNow p.1 vi hit) c
  match by_ with
  | some xk => c.modCtx xk fun x => if x.pend.kind = .inval then
      { x with pend := { x.pend with left := x.pend.left - 1, t := max x.pend.t e.now, ans := if x.pend.left ≤ 1 then some (.value 0 (max x.pend.t e.now)) else none } } else x
  | none => c.modVi vi fun w => { w with tlbLeft := w.tlbLeft - 1, tlbT := max w.tlbT e.now }

end Sys2Proof.Machine
end

