-- ==== Sys2Proof/Machine/Memory.lean ====
section
/-! DEFINITION. Loads, stores, STV, prefetch, L1 maintenance, buffer handles (R182 to R190), and the events of their
requests (R163, R171 to R177, R188). -/
namespace Sys2Proof.Machine
open Sys2Proof

/-! ### Issue of an access (R159, R184, R331) -/

/-- The checks at issue of the pieces of an access, in order, then LKLOST, then the order with the context's own accesses
to the same place; `k` when nothing stops or holds it. `al` is the alignment. -/
def accessFate (c : Chip) (xk : Nat) (x : Ctx) (al : Nat) (ps : List Piece) (k : Fate) : Fate :=
  match ps.findSome? (fun p => (c.check xk p.2.1 p.2.2 al).map fun code => (code, p.2.1)) with
  | some (code, a) => .trap code a
  | none =>
    match ps.findSome? (fun p => (x.lostOver p.2.1 p.2.2).map fun h => (h, p.2.1)) with
    | some (h, a) => c.takeLost xk h a
    | none =>
      match ps.find? (fun p => x.placeBusy p.2.1 p.2.2) with
      | some p => .wait c (.samePlace p.2.1 p.2.2)
      | none => k
/-- Consecutive pieces of one line, at consecutive addresses and offsets, become one (R259: lanes go line by line). -/
def mergePieces : List Piece → List Piece
  | [] => []
  | (o, a, n) :: r =>
    match mergePieces r with
    | (o', a', n') :: r' =>
      if o' = o + n ∧ a' = a + w64 n ∧ lineOf a' = lineOf a then (o, a, n + n') :: r' else (o, a, n) :: (o', a', n') :: r'
    | [] => [(o, a, n)]
/-- An own-window piece that an empty line holds (R210). -/
def Chip.emptyPiece (c : Chip) (xk : Nat) (ps : List Piece) : Option (Nat × Nat) :=
  ps.findSome? fun p => (c.ownOff xk p.2.1 p.2.2).bind fun off =>
    if (c.core (coreOf xk)).fullOver off p.2.2 then none else some (off, p.2.2)
/-- A load of pieces into a destination (R182, R210, R259). -/
def loadFate (e : Env) (c : Chip) (xk : Nat) (x : Ctx) (al : Nat) (kind : OpKind) (dst : Dst) (act : Act) (cached : Bool)
    (ps : List Piece) : Fate :=
  accessFate c xk x al ps (
    match c.emptyPiece xk ps with
    | some (off, n) => .wait c (.full off n)
    | none => .retire (c.loadPieces e xk kind .ld dst act cached (mergePieces ps)))
/-- Consecutive store pieces of one line become one. -/
def mergeData : List (W64 × List Byte) → List (W64 × List Byte)
  | [] => []
  | (a, d) :: r =>
    match mergeData r with
    | (a', d') :: r' => if a' = a + w64 d.length ∧ lineOf a' = lineOf a then (a, d ++ d') :: r' else (a, d) :: (a', d') :: r'
    | [] => [(a, d)]
/-- An irrevocable act unless every piece lies in the run (R183, R260). -/
def Chip.sealOut (c : Chip) (xk : Nat) (ps : List (W64 × Nat)) (k : Fate) : Fate :=
  if ps.all fun p => c.inRun xk p.1 p.2 then k else c.sealed xk k
/-- A store of pieces (R183, R259). -/
def storeFate (e : Env) (c : Chip) (xk : Nat) (x : Ctx) (al : Nat) (kind : OpKind) (dst : Dst) (ps : List (W64 × List Byte)) : Fate :=
  accessFate c xk x al (ps.map fun p => (0, p.1, p.2.length)) (
    c.sealOut xk (ps.map fun p => (p.1, p.2.length)) (.retire (c.storePieces e xk kind dst .store (mergeData ps))))

/-! ### Scalar loads and stores (R182, R183, R185) -/

/-- The address of a load or store (R182). -/
def Ctx.ea (x : Ctx) (a : BitVec 5) (o : BitVec 13) : W64 := x.getX a.toNat + sxt 13 o.toNat
/-- A scalar load of `n` bytes. -/
def scalarLoad (i : Instr) (d a : BitVec 5) (o : BitVec 13) (n : Nat) (sx : Bool) (s : State) : Host.Outcome State Fault Refusal :=
  run s fun e c => issue e c i { x := [d.toNat, a.toNat], mem := true, ctr := .ld } fun e c xk x =>
    loadFate e c xk x n .load (.x d.toNat n sx) .load true [(0, x.ea a o, n)]
/-- A scalar store of `n` bytes. -/
def scalarStore (i : Instr) (v a : BitVec 5) (o : BitVec 13) (n : Nat) (s : State) : Host.Outcome State Fault Refusal :=
  run s fun e c => issue e c i { x := [v.toNat, a.toNat], mem := true, ctr := .st } fun e c xk x =>
    storeFate e c xk x n .store .none [(x.ea a o, leBytes n (x.getX v.toNat).toNat)]

/-- LB (R182). -/
def execLb (d a : BitVec 5) (o : BitVec 13) (s : State) : Host.Outcome State Fault Refusal := scalarLoad (.lb d a o) d a o 1 true s
/-- LBN (R182). -/
def execLbn (d a : BitVec 5) (o : BitVec 13) (s : State) : Host.Outcome State Fault Refusal := scalarLoad (.lbn d a o) d a o 1 false s
/-- LH (R182). -/
def execLh (d a : BitVec 5) (o : BitVec 13) (s : State) : Host.Outcome State Fault Refusal := scalarLoad (.lh d a o) d a o 2 true s
/-- LHN (R182). -/
def execLhn (d a : BitVec 5) (o : BitVec 13) (s : State) : Host.Outcome State Fault Refusal := scalarLoad (.lhn d a o) d a o 2 false s
/-- LW (R182). -/
def execLw (d a : BitVec 5) (o : BitVec 13) (s : State) : Host.Outcome State Fault Refusal := scalarLoad (.lw d a o) d a o 4 true s
/-- LWN (R182). -/
def execLwn (d a : BitVec 5) (o : BitVec 13) (s : State) : Host.Outcome State Fault Refusal := scalarLoad (.lwn d a o) d a o 4 false s
/-- LD (R182). -/
def execLd (d a : BitVec 5) (o : BitVec 13) (s : State) : Host.Outcome State Fault Refusal := scalarLoad (.ld d a o) d a o 8 false s
/-- SB (R183). -/
def execSb (v a : BitVec 5) (o : BitVec 13) (s : State) : Host.Outcome State Fault Refusal := scalarStore (.sb v a o) v a o 1 s
/-- SH (R183). -/
def execSh (v a : BitVec 5) (o : BitVec 13) (s : State) : Host.Outcome State Fault Refusal := scalarStore (.sh v a o) v a o 2 s
/-- SW (R183). -/
def execSw (v a : BitVec 5) (o : BitVec 13) (s : State) : Host.Outcome State Fault Refusal := scalarStore (.sw v a o) v a o 4 s
/-- SD (R183). -/
def execSd (v a : BitVec 5) (o : BitVec 13) (s : State) : Host.Outcome State Fault Refusal := scalarStore (.sd v a o) v a o 8 s
/-- STV (R185): xd receives the acknowledged time; with d = 0 it is an SD. -/
def execStv (d a b : BitVec 5) (s : State) : Host.Outcome State Fault Refusal :=
  run s fun e c => issue e c (.stv d a b) { x := [d.toNat, a.toNat, b.toNat], mem := true, ctr := .st } fun e c xk x =>
    storeFate e c xk x 8 .store (.x d.toNat 8 false) [(x.getX a.toNat, leBytes 8 (x.getX b.toNat).toNat)]

/-! ### Prefetch and L1 maintenance (R186) -/

/-- PREF (R186): an address that would fault makes it do nothing. -/
def execPref (a : BitVec 5) (s : State) : Host.Outcome State Fault Refusal :=
  run s fun e c => issue e c (.pref a) { x := [a.toNat], mem := true } fun e c xk x =>
    let ad := x.getX a.toNat
    if isGlobal ad && ((c.core (coreOf xk)).l1Find xk x.vi e.now ad).isNone then
      .retire ((c.request { src := xk, part := c.serial, vi := x.vi, act := .pref, va := lineOf ad, n := 1, cached := true }).next)
    else .retire c
/-- L1WB and L1INV (R186): a dirty private line is written back, and the context waits for the acknowledgement. -/
def cleanLine (c : Chip) (xk : Nat) (x : Ctx) (ad : W64) (drop : Bool) : Fate :=
  let ck := coreOf xk
  let mine (l : L1Line) : Bool := l.vi == x.vi && l.va == lineOf ad
  if x.pend.kind = .line then (match x.pend.ans with | some _ => .retire c | none => .wait c .answer)
  else if !isGlobal ad then .retire c
  else
    let dirty := (c.core ck).l1.find? fun l => mine l && l.kind == .owned true
    let id := c.serial
    let c := match dirty with | some l => c.writeBackLine ck l true | none => c
    let rest (l1 : List L1Line) : List L1Line :=
      if drop then l1.filter fun l => !(mine l && (match l.kind with | .locked _ => false | _ => true))
      else updAll (fun l => mine l && l.kind == .owned true) (fun l => { l with kind := .owned false }) l1
    let c := c.modCore ck fun k => { k with l1 := rest k.l1 }
    let c := if drop then c.sendWaddrs ck fun q => q.vi == x.vi && lineOf q.va == lineOf ad else c
    match dirty with
    | some _ => .wait (c.modCtx xk fun x => { x with pend := { kind := .line, id := id } }) .answer
    | none => .retire c
/-- L1WB (R186). -/
def execL1wb (a : BitVec 5) (s : State) : Host.Outcome State Fault Refusal :=
  run s fun e c => issue e c (.l1wb a) { x := [a.toNat], mem := true } fun _ c xk x => cleanLine c xk x (x.getX a.toNat) false
/-- L1INV (R186). -/
def execL1inv (a : BitVec 5) (s : State) : Host.Outcome State Fault Refusal :=
  run s fun e c => issue e c (.l1inv a) { x := [a.toNat], mem := true } fun _ c xk x => cleanLine c xk x (x.getX a.toNat) true

/-! ### Buffer handles (R178 to R181, R187 to R190) -/

/-- The next generation of an entry: 0 is skipped on wrap (R179). -/
def nextGen (g : Nat) : Nat := if 65535 ≤ g then 1 else g + 1
/-- The handle of an entry (R178). -/
def handleOf (ck idx gen : Nat) : W64 :=
  w64 (gen * 2 ^ 48 + idx * 2 ^ 42 + dieOf ck * 2 ^ 39 + clusOf ck * 2 ^ 37 + coreNo ck * 2 ^ 29)
/-- The core, entry and generation of a handle; none where it is malformed (R178). -/
def handleParse (h : W64) : Option (Nat × Nat × Nat) :=
  let v := h.toNat
  if bits v 29 8 ≤ 191 ∧ bits v 0 29 = 0 ∧ bits v 48 16 ≠ 0 then
    some (bits v 39 3 * 768 + bits v 37 2 * 192 + bits v 29 8, bits v 42 6, bits v 48 16) else none
/-- The buffer that a handle names while it is current (R179). -/
def Chip.current (c : Chip) (h : W64) : Option (Nat × Nat × Buf) :=
  (handleParse h).bind fun p =>
    let b := (c.core p.1).bufs.get ({} : Buf) p.2.1
    if b.valid ∧ b.gen = p.2.2 then some (p.1, p.2.1, b) else none
/-- The package with a buffer entry replaced. -/
def Chip.setBuf (c : Chip) (ck idx : Nat) (b : Buf) : Chip := c.modCore ck fun k => { k with bufs := k.bufs.put idx b }
/-- HGIVE, HREV or HCHK at the buffer's core: the result, or none where the handle traps HSTALE (R188 to R190). -/
def handleAct (c : Chip) (act : Act) (h : W64) (xk : Nat) : Chip × Option W64 :=
  match act, c.current h with
  | .hgive new, some (ck, i, b) =>
    if b.holder = xk ∧ !b.suspended then (c.setBuf ck i { b with gen := nextGen b.gen, holder := new }, some (handleOf ck i (nextGen b.gen))) else (c, none)
  | .hrev, some (ck, i, b) =>
    if (b.holder = xk ∨ b.creator = xk) ∧ !b.suspended then (c.setBuf ck i { b with gen := nextGen b.gen, valid := false }, some 0) else (c, none)
  | .hchk, some (_, _, b) => (c, some (if b.holder = xk then w64 (b.len * 2 ^ 32) else 1))
  | .hchk, none => (c, some 2)
  | _, _ => (c, none)
/-- A handle instruction after its own checks: performed at issue on the own core, sent to the buffer's core otherwise (R188, R460). -/
def handleFate (c : Chip) (xk : Nat) (x : Ctx) (act : Act) (h : W64) (done : Chip → W64 → Chip) : Fate :=
  if x.pend.kind = .handle then
    match x.pend.ans with
    | some (.value v _) => .retire (done c v)
    | some (.refused code _) => if x.hasRefused then .wait (c.modCtx xk fun x => { x with pend := {} }) .free else .trap code h
    | none => .wait c .answer
  else match handleParse h with
    | some (ck, _, _) =>
      if ck = coreOf xk then
        (match handleAct c act h xk with
         | (c', some v) => .retire (done c' v)
         | (_, none) => .trap 0x07 h)
      else
        .wait ((c.request { src := xk, part := c.serial, vi := x.vi, act := act, va := windowAddr ck 0, n := 8, data := leBytes 8 h.toNat }).next.modCtx xk
          fun y => { y with pend := { kind := .handle, id := c.serial } }) .answer
    | none => match act with | .hchk => .retire (done c 2) | _ => .trap 0x07 h
/-- The context that the low 16 bits of xb name (R188); a core above 191 names none. -/
def holderOf (v : W64) : Nat :=
  let n := v.toNat
  if bits n 3 8 ≤ 191 then (bits n 13 3 * 768 + bits n 11 2 * 192 + bits n 3 8) * 8 + bits n 0 3 else 2 ^ 20 + n

/-- HNEW (R187). -/
def execHnew (d a b : BitVec 5) (s : State) : Host.Outcome State Fault Refusal :=
  run s fun e c => issue e c (.hnew d a b) { x := [d.toNat, a.toNat, b.toNat] } fun _ c xk x =>
    let ad := x.getX a.toNat
    let n := (x.getX b.toNat).toNat
    let ck := coreOf xk
    match c.ownOff xk ad 1 with
    | none => .trap 0x06 ad
    | some o =>
      let k := c.core ck
      if o % 128 ≠ 0 ∨ n = 0 ∨ n % 128 ≠ 0 ∨ !x.ownsRun o (o + n) ∨
          (k.bufs.any fun p => p.2.valid && meets o (o + n) p.2.base (p.2.base + p.2.len)) then .trap 0x06 ad
      else match (List.range 64).find? (fun i => !(k.bufs.get ({} : Buf) i).valid) with
        | none => .retire (c.modCtx xk fun y => y.setX d.toNat 0)
        | some i =>
          let g := nextGen (k.bufs.get ({} : Buf) i).gen
          .retire ((c.setBuf ck i { valid := true, gen := g, base := o, len := n, vi := x.vi, creator := xk, holder := xk }).modCtx xk
            fun y => y.setX d.toNat (handleOf ck i g))
/-- HGIVE (R188): the sweep of the old handle comes before the write of the new one. -/
def execHgive (d a b : BitVec 5) (s : State) : Host.Outcome State Fault Refusal :=
  run s fun e c => issue e c (.hgive d a b) { x := [d.toNat, a.toNat, b.toNat] } fun _ c xk x =>
    let h := x.getX a.toNat
    let v := x.getX b.toNat
    if 2 ^ 16 ≤ v.toNat then .trap 0x01 v
    else if x.cnt .st ≠ 0 ∧ x.pend.kind ≠ .handle then .wait c (.ctrs 63 0 63 63 63)
    else handleFate c xk x (.hgive (holderOf v)) h fun c r => c.modCtx xk fun y =>
      ((List.range 32).foldl (fun y i => if y.getX i = h then y.setX i 0 else y) y).setX d.toNat r
/-- HREV (R189). -/
def execHrev (a : BitVec 5) (s : State) : Host.Outcome State Fault Refusal :=
  run s fun e c => issue e c (.hrev a) { x := [a.toNat] } fun _ c xk x =>
    if x.cnt .st ≠ 0 ∧ x.pend.kind ≠ .handle then .wait c (.ctrs 63 0 63 63 63)
    else handleFate c xk x .hrev (x.getX a.toNat) fun c _ => c
/-- HCHK (R190). -/
def execHchk (d a : BitVec 5) (s : State) : Host.Outcome State Fault Refusal :=
  run s fun e c => issue e c (.hchk d a) { x := [d.toNat, a.toNat] } fun _ c xk x =>
    handleFate c xk x .hchk (x.getX a.toNat) fun c v => c.modCtx xk fun y => y.setX d.toNat v
/-- The buffers of a context that ends, or of one saved under `s` that is cancelled: its own are freed, those it holds return
to their creators (R181, R391). -/
def Chip.revokeBufs (c : Chip) (xk : Nat) (s : Option Nat) : Chip :=
  let out (b : Buf) : Buf :=
    if b.valid && b.creator == xk && b.creatorS == s then { b with valid := false, creatorS := none, holderS := none }
    else if b.valid && b.holder == xk && b.holderS == s then { b with holder := b.creator, gen := nextGen b.gen, holderS := none }
    else b
  let clear (k : Core) : Core := { k with bufs := k.bufs.map fun q => (q.1, out q.2) }
  { c with cores := c.cores.map fun p => (p.1, clear p.2) }

/-! ### The events -/

/-- Two addresses lie in one page of an interface; where none is mapped, in one of the smallest size (R166, R259). -/
def samePage (e : Env) (c : Chip) (vi : Nat) (a b : W64) : Bool :=
  let lg := match walk e c vi a with | .ok l => l.lg | .error _ => 16
  a.toNat / 2 ^ lg == b.toNat / 2 ^ lg
/-- The other parts of an instruction's access that are on their way to the same page. -/
def Chip.pageMates (e : Env) (c : Chip) (q : Req) : List Req :=
  if q.host || noCore q.act || q.op == 0 then []
  else c.net.filterMap fun f => match f.ev with
    | .translate p => if !p.host && p.src == q.src && p.op == q.op && p.part != q.part && samePage e c q.vi q.va p.va then some p else none
    | _ => none
/-- A translation home translates a request, and with it the parts of the same access that go to the same page: a refusal covers all
of them (R259). -/
def translateAll (e : Env) (c : Chip) (q : Req) : Chip :=
  let ms := c.pageMates e q
  if ms.isEmpty then translate e c q
  else
    let mine (f : Flight) : Bool := match f.ev with | .translate p => ms.contains p | _ => false
    let c' := translate e { c with net := c.net.filter fun f => !mine f } q
    let refused := c'.net.findSome? fun f => match f.ev with | .receiverFault _ (some r) => if r.q.src == q.src && r.q.part == q.part then some r else none | _ => none
    let again : Bool := c'.net.any fun f => match f.ev with | .faultRetry p => p.src == q.src && p.part == q.part | _ => false
    match refused with
    | some r => ms.foldl (fun c m => c.refuse (transNode m.va) m r.code r.token) c'
    | none => if again then { c' with net := c'.net ++ c.net.filter mine } else ms.foldl (translate e) c'
/-- TRANSLATE (R163 to R173). -/
def execTranslate (q : Req) (s : State) : Host.Outcome State Fault Refusal := run s fun e c => translateAll e c q
/-- FAULT_RETRY (R383): a request answered RETRY is sent again. -/
def execFaultRetry (q : Req) (s : State) : Host.Outcome State Fault Refusal := run s fun e c => translateAll e c q
/-- LOAD_REPLY (R149, R173, R175). -/
def execLoadReply (q : Req) (data fill : List Byte) (expiry : Nat) (s : State) : Host.Outcome State Fault Refusal :=
  run s fun e c => loadReplied e c q data fill expiry
/-- STORE_REQUEST (R176, R180). -/
def execStoreRequest (q : Req) (s : State) : Host.Outcome State Fault Refusal := run s fun e c => storeAt e c q
/-- STORE_ACK (R149, R177). -/
def execStoreAck (q : Req) (vt : Nat) (s : State) : Host.Outcome State Fault Refusal := run s fun e c => storeAcked e c q vt
/-- LEASE_EXPIRY (R175): a leased line is dropped once GTIME has reached its expiry. -/
def execLeaseExpiry (ck vi : Nat) (va : W64) (s : State) : Host.Outcome State Fault Refusal :=
  run s fun e c => c.modCore ck fun k => { k with l1 := k.l1.filter fun l =>
    !(l.vi == vi && l.va == va && (match l.kind with | .leased t => decide (t ≤ e.now) | _ => false)) }
/-- WRITE_BACK (R172, R173). -/
def execWriteBack (w : WriteBack) (s : State) : Host.Outcome State Fault Refusal := run s fun e c => writeBackAt e c w
/-- FLUSH (R173). -/
def execFlush (ck vi : Nat) (page : W64) (size die : Nat) (s : State) : Host.Outcome State Fault Refusal :=
  run s fun e c => flushPage e c ck vi page size die
/-- FLUSHACK (R173); the home does nothing with its status WB-INFLIGHT. -/
def execFlushAck (die vi : Nat) (page : Flushed) (s : State) : Host.Outcome State Fault Refusal := run s fun e c => flushAcked e c die vi page.page
/-- SCOPE_MISS (R298, R299). -/
def execScopeMiss (q : Req) (s : State) : Host.Outcome State Fault Refusal := run s fun e c => scopeMissed e c q
/-- FBACK (R382, R383). -/
def execFback (die : Nat) (value : W64) (s : State) : Host.Outcome State Fault Refusal := run s fun e c => fbackAt e c die value
/-- INVAL (R398). -/
def execInval (die vi : Nat) (all : Bool) (va : W64) (by_ : Option Nat) (s : State) : Host.Outcome State Fault Refusal :=
  run s fun e c => invalAt e c die vi all va by_
/-- HANDLE_UPDATE (R188 to R190): the buffer's core performs the update in its serial order. -/
def execHandleUpdate (q : Req) (s : State) : Host.Outcome State Fault Refusal :=
  run s fun _ c => match handleAct c q.act (w64 (leNat q.data)) q.src with
    | (c, some v) => c.send q.home (reqFrom q) .rsp (.loadReply q (leBytes 8 v.toNat) [] 0)
    | (c, none) => c.refuse q.home q 0x07 0
/-- WADDR_RETRY (R216): the refused wait is sent again unless its context waits no longer. -/
def execWaddrRetry (q : Req) (s : State) : Host.Outcome State Fault Refusal :=
  run s fun _ c => if (c.ctx q.src).pend.id = q.part then c.request { q with home := 0, pa := 0 } else c

end Sys2Proof.Machine
end

