-- ==== Sys2Proof/Machine/Copy.lean ====
section
/-! DEFINITION. The copy engine and full/empty lines (R191 to R216). A copy moves its bytes in one step, one of the
moments that R202 allows. -/
namespace Sys2Proof.Machine
open Sys2Proof

/-! ### The description of a copy (R192 to R198) -/

/-- ROWS (R193). -/
def CpRegs.rows (r : CpRegs) : Nat := bits r.shape.toNat 24 16
/-- RLEN (R193). -/
def CpRegs.rlen (r : CpRegs) : Nat := bits r.shape.toNat 0 20
/-- CEN (R194). -/
def CpRegs.cen (r : CpRegs) : Bool := bit r.bound.toNat 40
/-- Rows and bytes a row that are read from the source (R194). -/
def CpRegs.srcRows (r : CpRegs) : Nat := if r.cen then Nat.min (bits r.bound.toNat 0 16) r.rows else r.rows
/-- The bytes of a row that are read from the source (R194). -/
def CpRegs.srcLen (r : CpRegs) : Nat := if r.cen then Nat.min (bits r.bound.toNat 16 24) r.rlen else r.rlen
/-- FILL (R194). -/
def CpRegs.fill (r : CpRegs) : Byte := BitVec.ofNat 8 (bits r.bound.toNat 56 8)
/-- The clipped count (R194). -/
def CpRegs.clipped (r : CpRegs) : Nat := if r.cen then r.rows * r.rlen - r.srcRows * r.srcLen else 0
/-- VEN (R195). -/
def CpRegs.ven (r : CpRegs) : Bool := bit r.ver.toNat 32
/-- COLS (R198). -/
def CpRegs.cols (r : CpRegs) : Nat := bits r.mcast.toNat 0 16
/-- The peer device of the source; a redirect to the own device is none (R197). -/
def CpRegs.srcDev (r : CpRegs) (g : Nat) : Option Nat := if bit r.dev.toNat 4 && bits r.dev.toNat 0 4 != g then some (bits r.dev.toNat 0 4) else none
/-- The peer device of the destination (R197). -/
def CpRegs.dstDev (r : CpRegs) (g : Nat) : Option Nat := if bit r.dev.toNat 9 && bits r.dev.toNat 5 4 != g then some (bits r.dev.toNat 5 4) else none
/-- Lowest address and length of the extent of `n` rows of `len` bytes; none when nothing is touched (R200). -/
def extent (a stride : W64) (n len : Nat) : Option (Int × Nat) :=
  if n = 0 ∨ len = 0 then none
  else
    let d : Int := ((n : Int) - 1) * stride.toInt
    some ((a.toNat : Int) + Min.min 0 d, d.natAbs + len)
/-- The extent of the destination, with the version word of a conditional copy (R200). -/
def CpRegs.dstExtent (r : CpRegs) : Option (Int × Nat) :=
  let x := extent r.dst r.strb r.rows r.rlen
  if r.ven then x.map fun p => (Min.min p.1 ((r.dst.toNat : Int) - 128), (p.1 + p.2 - Min.min p.1 ((r.dst.toNat : Int) - 128)).toNat) else x
/-- The row starts of an operand. -/
def rowAddrs (a stride : W64) (n : Nat) : List W64 := (List.range n).map fun i => a + w64 i * stride
/-- A scratchpad extent lies inside one window and keeps R157. -/
def Chip.extentOk (c : Chip) (a : W64) (x : Option (Int × Nat)) : Bool :=
  match x with
  | none => true
  | some (lo, n) =>
    match c.spParse a 1, c.spParse (BitVec.ofInt 64 lo) n with
    | some (k, _), some (k', _) => k == k'
    | _, _ => false
/-- The cores that a multicast names, in ascending bit order (R198). -/
def castCores (ck cols : Nat) : List Nat := ((List.range 16).filter (bit cols)).map fun i => ck / 16 * 16 + i

/-! ### Starting a copy (R199 to R201) -/

/-- The checks at GO, in their order: the trap and its TVAL. Of several failures of one step the one named first in the spec's row, or
the register of the lowest number, gives TVAL, the spec says no order among them (R200, log 102). -/
def Chip.goCheck (c : Chip) (xk : Nat) (r : CpRegs) : Option (Nat × W64) :=
  let ck := coreOf xk
  let own (a : W64) : Bool := permOk a && space a == 1 && bits a.toNat 47 3 * 768 + bits a.toNat 45 2 * 192 + bits a.toNat 37 8 == ck && bits a.toNat 37 8 ≤ 191
  let sp (a : W64) : Bool := permOk a && space a == 1
  let sx := extent r.src r.stra r.srcRows r.srcLen
  let dx := r.dstExtent
  let rowsIn (a st : W64) (n len : Nat) : Bool :=
    len == 0 || (rowAddrs a st n).all fun b => match c.ownOff xk b len with | some o => (c.protect xk o len).isNone | none => false
  let n (v : W64) : Nat := v.toNat
  -- step 1
  if bits (n r.shape) 40 24 ≠ 0 ∨ bits (n r.shape) 20 4 ≠ 0 ∨ r.rows = 0 ∨ r.rlen = 0 ∨ r.rlen % 4 ≠ 0 then some (0x01, 0x024)
  else if bits (n r.bound) 41 15 ≠ 0 then some (0x01, 0x025)
  else if bits (n r.ver) 33 31 ≠ 0 then some (0x01, 0x026)
  else if bits (n r.dev) 10 54 ≠ 0 then some (0x01, 0x028)
  else if bits (n r.mcast) 16 48 ≠ 0 then some (0x01, 0x029)
  -- step 2
  else if r.ven && (!sp r.dst || decide (16384 < r.rows * r.rlen) || r.cols != 0) then some (0x01, 0x026)
  -- step 3
  else if r.cols ≠ 0 && !own r.dst then some (0x01, 0x029)
  else if (bit (n r.dev) 9 && space r.dst != 2) || (bit (n r.dev) 4 && space r.src != 2) then some (0x01, 0x028)
  -- step 4
  else match [r.src, r.dst].find? (fun a => !permOk a) with
  | some a => some (0x09, a)
  | none =>
  if r.done ≠ 0 && !permOk r.done then some (0x09, r.done)
  -- step 5
  else match [r.src, r.dst, r.stra, r.strb].find? (fun a => a.toNat % 4 ≠ 0) with
  | some a => some (0x05, a)
  | none =>
  if r.done.toNat % 8 ≠ 0 then some (0x05, r.done)
  else if r.ven && n r.dst % 128 ≠ 0 then some (0x05, r.dst)
  -- step 6
  else if sp r.src && !c.extentOk r.src sx then some (0x06, r.src)
  else if sp r.dst && !c.extentOk r.dst dx then some (0x06, r.dst)
  else if r.done ≠ 0 && sp r.done && (c.spParse r.done 8).isNone then some (0x06, r.done)
  -- step 7
  else if own r.src && !rowsIn r.src r.stra r.srcRows r.srcLen then some (0x06, r.src)
  else if own r.dst && !rowsIn r.dst r.strb r.rows r.rlen then some (0x06, r.dst)
  else if own r.dst && r.ven && !rowsIn (r.dst - 128) 0 1 4 then some (0x06, r.dst)
  else if r.done ≠ 0 && own r.done && !rowsIn r.done 0 1 8 then some (0x06, r.done)
  else none
/-- The copy is an irrevocable act (R201). -/
def Chip.copySeals (c : Chip) (xk : Nat) (r : CpRegs) : Bool :=
  (c.ownOff xk r.dst 1).isNone || (castCores (coreOf xk) r.cols).any (· ≠ coreOf xk) || (r.done ≠ 0 && (c.ownOff xk r.done 8).isNone)
/-- The lost lock whose line an extent of the copy covers (R331). -/
def Ctx.lostCopy (x : Ctx) (r : CpRegs) : Option Held :=
  let hits (p : Option (Int × Nat)) (h : Held) : Bool := match p with
    | some (lo, n) => decide (lo < (h.line.toNat : Int) + 128 ∧ (h.line.toNat : Int) < lo + n)
    | none => false
  x.held.find? fun h => h.lost && (hits (extent r.src r.stra r.srcRows r.srcLen) h || hits r.dstExtent h)
/-- The copies of a core whose contexts go on: cancellation and teardown stop a copy at once (R208). -/
def Chip.liveCopies (c : Chip) (ck : Nat) : List CopyE := (c.core ck).copies.filter fun n => (c.endReason n.ctx).isNone
/-- CPGO (R199): a read of CPGO checks, seals where R201 asks it, takes the snapshot and queues the copy. -/
def execCpgo (d : BitVec 5) (s : State) : Host.Outcome State Fault Refusal :=
  run s fun e c => issue e c (.cpgo d) { x := [d.toNat], mem := true, ctr := .cp } fun _ c xk x =>
    if 32 ≤ (c.liveCopies (coreOf xk)).length then .wait c .copyRoom
    else match c.goCheck xk x.cp with
    | some (code, t) => .trap code t
    | none =>
      match x.lostCopy x.cp with
      | some h => c.takeLost xk h h.line
      | none =>
        let go : Fate :=
          let id := ctxNo xk * 2 ^ 13 + x.cpSeq
          let op := c.serial
          let ent : CopyE := { id := id, ctx := xk, op := op, vi := x.vi, r := x.cp,
                               after := (x.ops ++ x.replay).filterMap fun o => if o.ctr == .st then some o.id else none }
          let c := (c.next.modCore (coreOf xk) fun k => { k with copies := k.copies ++ [ent] }).addOp xk { id := op, kind := .copy id, ctr := .cp }
          .retire (c.modCtx xk fun y => { y.setX d.toNat (w64 id) with
            cpSeq := (y.cpSeq + 1) % 8192, cpStat := (⟨id, 1, 0, x.cp.clipped⟩ :: y.cpStat).take 64 })
        if c.copySeals xk x.cp then c.sealed xk go else go

/-! ### Accesses that an engine of the package makes whole: images, spill rings, actor areas (R353, R399) -/

/-- The parts of [a, a + n) in 128-byte lines: offset, address, length. -/
def linesOf (a : W64) (n : Nat) : List Piece :=
  let s := a.toNat % 128
  (List.range ((s + n + 127) / 128)).filterMap fun i =>
    let lo := if i = 0 then 0 else 128 * i - s
    let hi := Nat.min n (128 * (i + 1) - s)
    if lo < hi then some (lo, a + w64 lo, hi - lo) else none
/-- The engine's access to part of a global line: the home and place, or the package and a status of R206; 0x100 asks for
the access to be made again (R383), and `heldCode` says that its page is being asked back from its owner (R173). A PFAULT is logged
with SIDE 3 (R381, R382). -/
def Chip.engineReach (e : Env) (c : Chip) (log : Bool) (vi ck : Nat) (a : W64) (n : Nat) (write : Bool) :
    Except (Chip × Nat) (Chip × Nat × Nat) :=
  match c.reach e vi a (if write then 1 else 0) none none with
  | .ok (c, h, pa) => if !write && c.badAt pa n then .error (c, 0x10) else .ok (c, h, pa)
  | .error (code, migr) =>
    if log ∧ code = 8 then
      match c.logFault e (hash21 a.toNat) vi a (bn write) 3 (ck % 768) none migr with
      | (c, some _) => .error (c, 8)
      | (c, none) => .error (c, 0x100)
    else .error (c.askPage e vi a (if write then 1 else 0), code)
/-- Bytes of global memory read by an engine, line by line, or the status of the first fault. -/
def readRow (e : Env) (c : Chip) (log : Bool) (vi ck : Nat) (a : W64) (n : Nat) : Except (Chip × Nat) (Chip × List Byte) :=
  (linesOf a n).foldl (fun (r : Except (Chip × Nat) (Chip × List Byte)) p =>
    match r with
    | .error code => .error code
    | .ok (c, d) =>
      match c.engineReach e log vi ck p.2.1 p.2.2 false with
      | .ok (c, h, pa) => .ok (c, d ++ (if h = bridgeNode then rdN e c pa p.2.2 else c.homeRead e vi pa p.2.2))
      | .error code => .error code) (.ok (c, []))
/-- Bytes written by an engine at a global address: the status of the first fault, and the latest visibility time. -/
def writeGlobal (e : Env) (c : Chip) (log : Bool) (vi ck : Nat) (a : W64) (d : List Byte) : Chip × Nat × Nat :=
  (linesOf a d.length).foldl (fun (acc : Chip × Nat × Nat) p =>
    let (c, st, t) := acc
    if st ≠ 0 then acc
    else match c.engineReach e log vi ck p.2.1 p.2.2 true with
      | .ok (c, h, pa) => (c.homeWrite e ck h vi pa ((d.drop p.1).take p.2.2), 0, max t (c.ackTime e h pa))
      | .error (c, code) => (c, code, t)) (c, 0, 0)

/-! ### Running a copy (R202 to R207): one destination line of one row after another, by messages where the line is not the core's own -/

/-- The next destination bytes of a copy: at most what is left of the row and of the 128-byte line. -/
def CopyE.len (n : CopyE) : Nat :=
  Nat.min (n.r.rlen - n.off) (128 - ((n.r.dst + w64 n.row * n.r.strb).toNat + n.off) % 128)
/-- How many of them are read from the source; the others are clipped (R194). -/
def CopyE.valid (n : CopyE) : Nat := if n.row < n.r.srcRows then Nat.min n.len (n.r.srcLen - n.off) else 0
/-- The address of the next destination bytes. -/
def CopyE.dstAt (n : CopyE) : W64 := n.r.dst + w64 n.row * n.r.strb + w64 n.off
/-- The whole payload has been read and, but for a conditional copy, sent or written. -/
def CopyE.past (n : CopyE) : Bool := decide (n.r.rows ≤ n.row)
/-- The copy with its next destination bytes behind it. -/
def CopyE.advance (n : CopyE) : CopyE :=
  if n.off + n.len < n.r.rlen then { n with off := n.off + n.len, buf := [] } else { n with row := n.row + 1, off := 0, buf := [] }
/-- No later row of the copy writes into the destination line of its next bytes (R203). -/
def CopyE.last (n : CopyE) : Bool :=
  let line := n.dstAt.toNat / 128 * 128
  !(List.range n.r.rows).any fun i => decide (n.row < i) &&
    (let a := (n.r.dst + w64 i * n.r.strb).toNat
     meets line (line + 128) a (a + n.r.rlen))
/-- The check of a copy's remote windows when it begins: 0 or a status of R206 (R180, R202). Of several refused rows the one at
the lowest destination address decides, of a source row and a destination row at one address the source's (log 102); a multicast ends
with the status of the first target that refuses (R204, R206). -/
def copyRemote (c : Chip) (ent : CopyE) : Nat :=
  let r := ent.r
  let me := coreOf ent.ctx
  let bad (k : Nat) (b : W64) (len : Nat) : Option Nat := match c.spParse b len with
    | some (_, off) => if k = me then none else c.remoteProtect k off len ent.ctx ent.vi
    | none => some 0x06
  let rows (l : List (Nat × W64)) (len : Nat) (k : Option Nat) : List (Nat × Nat) :=
    if len = 0 then []
    else l.filterMap fun p => (bad (k.getD ((c.spParse p.2 1).elim me (·.1))) p.2 len).map fun code => (p.1, code)
  let at_ (n : Nat) (a st : W64) : List (Nat × W64) := ((rowAddrs r.dst r.strb n).zip (rowAddrs a st n)).map fun p => (p.1.toNat, p.2)
  let least (l : List (Nat × Nat)) : Option Nat :=
    (l.foldl (fun (a : Option (Nat × Nat)) p => match a with | some b => if p.1 < b.1 then some p else some b | none => some p) none).map (·.2)
  let src := if space r.src = 1 then rows (at_ r.srcRows r.src r.stra) r.srcLen none else []
  let dst (k : Option Nat) : List (Nat × Nat) := if space r.dst = 1 then rows (at_ r.rows r.dst r.strb) r.rlen k else []
  let ver := if r.ven then rows [((r.dst - 128).toNat, r.dst - 128)] 4 none else []
  if r.cols = 0 then (least (ver ++ src ++ dst none)).getD 0
  else match (castCores me r.cols).findSome? fun k => least (dst (some k)) with
    | some st => st
    | none => (least src).getD 0
/-- What CPSTAT says of a copy changed. -/
def Chip.setStat (c : Chip) (xk id state status : Nat) : Chip :=
  c.modCtx xk fun x => { x with cpStat := updFirst (·.id == id) (fun s => { s with state := state, status := status }) x.cpStat }
/-- An earlier store of the context has not been performed. A refused store holds the copy until it is issued again, but not while
an upcall or a stop of the context waits for the copy's end (R199, R378, R390, log 96). -/
def Chip.copyHeld (c : Chip) (n : CopyE) : Bool :=
  let x := c.ctx n.ctx
  n.after.any fun i => (x.ops ++ (if x.upcallDue || x.st == .halt then [] else x.replay)).any (·.id == i)
/-- The next copy that the engine may begin: the first queued one, with fewer than four running and its earlier stores performed (R199). -/
def Chip.copyReady (c : Chip) (ck : Nat) : Option CopyE :=
  let l := c.liveCopies ck
  if 4 ≤ (l.filter (·.running)).length then none
  else match l.find? (fun n => !n.running) with
    | none => none
    | some n => if c.copyHeld n then none else some n
/-- COPY_BEGIN (R199, R202). -/
def execCopyBegin (ck : Nat) (s : State) : Host.Outcome State Fault Refusal :=
  run s fun _ c => match c.copyReady ck with
    | none => c
    | some ent =>
      let st := copyRemote c ent
      (c.modCopy ck ent.op fun x => { x with running := true, status := st, moved := st ≠ 0 }).setStat ent.ctx ent.id 2 0
/-- A request of the engine leaves its core (R64, R197). -/
def Chip.copyAsk (c : Chip) (n : CopyE) (act : Act) (a : W64) (len : Nat) (d : List Byte) : Chip :=
  let id := c.serial
  (c.next.modCopy (coreOf n.ctx) n.op fun x => { x with out := x.out ++ [id] }).request
    { src := n.ctx, op := n.op, part := id, vi := n.vi, act := act, va := a, n := len, data := d }
/-- What bars a copy's access at a row of a global operand, which is checked when the copy runs: R156, and where the stride has taken
the row into scratchpad space R157 with R162 or R180 (R200). -/
def Chip.runCheck (c : Chip) (n : CopyE) (operand a : W64) (len : Nat) : Option Nat :=
  if !permOk a || !permOk (a + w64 (len - 1)) || space (a + w64 (len - 1)) != space a then some 0x09
  else if space operand = 2 ∧ space a = 1 then
    match c.spParse a len with
    | none => some 0x06
    | some (k, off) => if k = coreOf n.ctx then c.protect n.ctx off len else c.remoteProtect k off len n.ctx n.vi
  else none
/-- The next bytes of a row are read: the own scratchpad at once, the rest by requests (R202). -/
def copyRead (e : Env) (c : Chip) (n : CopyE) : Chip :=
  let ck := coreOf n.ctx
  let a := n.r.src + w64 n.row * n.r.stra + w64 (n.off + n.buf.length)
  let len := Nat.min (n.valid - n.buf.length) (128 - a.toNat % 128)
  match c.runCheck n n.r.src a len with
  | some code => c.copyFail e ck n.op code
  | none =>
  if space a = 1 then
    match c.spParse a len with
    | none => c.copyFail e ck n.op 0x06
    | some (k, off) =>
      if k ≠ ck then c.copyAsk n (.cpread none) a len []
      else if c.badAt (sram ck off) len then c.copyFail e ck n.op 0x10
      else c.modCopy ck n.op fun x => { x with buf := x.buf ++ rdN e c (sram ck off) len }
  else c.copyAsk n (.cpread (n.r.srcDev c.group)) a len []
/-- Bytes of a copy written into the window of a core, whose line becomes full with its last byte (R203, R211). -/
def Chip.copyPut (e : Env) (c : Chip) (n : CopyE) (k off : Nat) (d : List Byte) (last : Bool) : Chip :=
  let ck := coreOf n.ctx
  let line := off / 128 * 128
  let c := c.modCopy ck n.op fun x => { x with touched := (x.touched.filter (· ≠ (k, line))) ++ (if last then [] else [(k, line)]) }
  if k ≠ ck then c.copyAsk n (.cpwrite none last) (windowAddr k off) d.length d
  else
    let c := c.putSp e ck off d
    if last then c.fillLines e.now ck line 128 else c
/-- The next destination bytes are written, in every target of a multicast (R202 to R204). -/
def copyWrite (e : Env) (c : Chip) (n : CopyE) (d : List Byte) : Chip :=
  let a := n.dstAt
  match c.runCheck n n.r.dst a d.length with
  | some code => c.copyFail e (coreOf n.ctx) n.op code
  | none =>
  if space a = 1 then
    match c.spParse a d.length with
    | none => c.copyFail e (coreOf n.ctx) n.op 0x06
    | some (k, off) => (if n.r.cols = 0 then [k] else castCores (coreOf n.ctx) n.r.cols).foldl (fun c k => c.copyPut e n k off d n.last) c
  else c.copyAsk n (.cpwrite (n.r.dstDev c.group) false) a d.length d
/-- One step of the payload: the next source bytes are read, or the next destination bytes, clipped ones filled, are written; a
conditional copy keeps them (R194, R202, R205). -/
def copyStep (e : Env) (c : Chip) (n : CopyE) : Chip :=
  let ck := coreOf n.ctx
  if n.buf.length < n.valid then copyRead e c n
  else
    let d := n.buf ++ List.replicate (n.len - n.valid) n.r.fill
    if n.r.ven then c.modCopy ck n.op fun x => { x.advance with data := x.data ++ d }
    else (copyWrite e c n d).modCopy ck n.op fun x => if x.moved then x else { x.advance with moved := x.advance.past }
/-- The engine has a step to make for a copy: nothing of it is out, and for its end the payload's visibility time and the context's
earlier stores are past (R205, R207). -/
def Chip.copyDue (c : Chip) (n : CopyE) (now : Nat) : Bool :=
  n.running && n.out.isEmpty && !n.word && (if n.moved then decide (n.vt ≤ now) && !c.copyHeld n else !(n.r.ven && n.past))
/-- A conditional copy has its whole source in the engine (R205). -/
def CopyE.condDue (n : CopyE) : Bool := n.running && n.out.isEmpty && !n.moved && n.r.ven && n.past
/-- The destination rows of a conditional copy written into its window, in one step; then its lines are full, and the loads that
waited for them are released (R203, R205). -/
def condWrite (e : Env) (c : Chip) (n : CopyE) (k : Nat) : Chip :=
  let rows := (List.range n.r.rows).filterMap fun i => (c.spParse (n.r.dst + w64 i * n.r.strb) n.r.rlen).map fun p => (p.2, i)
  let c := rows.foldl (fun c p => c.putSp e k p.1 ((n.data.drop (p.2 * n.r.rlen)).take n.r.rlen)) c
  (c.modCore k fun m => rows.foldl (fun m p => m.setFull p.1 n.r.rlen) m).releaseLoads e.now k
/-- COPY_CONDITIONAL_WRITE (R205): the whole source is in the engine, and the destination core compares and writes in one step. -/
def execCopyConditionalWrite (ck id : Nat) (s : State) : Host.Outcome State Fault Refusal :=
  run s fun e c => match (c.core ck).copies.find? (·.op == id) with
    | none => c
    | some n =>
      if !n.condDue then c
      else match c.spParse (n.r.dst - 128) 4 with
        | none => c.copyFail e ck id 0x06
        | some (k, off) =>
          if c.isOff k then c.copyFail e ck id 0x06
          else if c.badAt (sram k off) 4 then c.copyFail e ck id 0x10
          else if leNat (rdN e c (sram k off) 4) = bits n.r.ver.toNat 0 32 then
            (condWrite e c n k).modCopy ck id fun x => { x with moved := true, vt := e.now }
          else c.modCopy ck id fun x => { x with moved := true, status := 0x02 }
/-- The completion word of a copy (R207). -/
def CopyE.wordBytes (n : CopyE) : List Byte := leBytes 8 (n.id * 2 ^ 48 + n.status * 2 ^ 40 + 2 ^ 39 + n.r.clipped)
/-- The payload of a copy is over: the completion word is written, and the copy ends with it (R207). -/
def copyEnds (e : Env) (c : Chip) (n : CopyE) : Chip :=
  let ck := coreOf n.ctx
  let ask (c : Chip) : Chip := (c.modCopy ck n.op fun x => { x with word := true }).copyAsk n (.cpwrite none false) n.r.done 8 n.wordBytes
  if n.r.done = 0 then c.copyEnd ck n.op 0 n.vt
  else if space n.r.done = 1 then
    match c.spParse n.r.done 8 with
    | none => c.copyEnd ck n.op 0x06 n.vt
    | some (k, off) =>
      if k = ck then (c.putSp e ck off n.wordBytes).copyEnd ck n.op 0 (max n.vt e.now)
      else match c.remoteProtect k off 8 n.ctx n.vi with
        | some code => c.copyEnd ck n.op code n.vt
        | none => ask c
  else ask c
/-- COPY_COMPLETE (R202, R207): the engine's next step for a copy, up to its end. -/
def execCopyComplete (ck id : Nat) (s : State) : Host.Outcome State Fault Refusal :=
  run s fun e c => match (c.core ck).copies.find? (·.op == id) with
    | none => c
    | some n => if !c.copyDue n e.now then c else if n.moved then copyEnds e c n else copyStep e c n

/-! ### Instructions (R212 to R216) -/

/-- CPSTAT (R212): before DONE the CLIPPED field reads 0 (log 102). -/
def execCpstat (a d : BitVec 5) (s : State) : Host.Outcome State Fault Refusal :=
  run s fun e c => issue e c (.cpstat a d) { x := [d.toNat, a.toNat] } fun _ c xk x =>
    let id := bits (x.getX a.toNat).toNat 0 16
    let v := match (if id / 2 ^ 13 = ctxNo xk then x.cpStat.find? (·.id == id) else none) with
      | some t => if t.state = 3 then t.clipped * 2 ^ 16 + t.status * 2 ^ 8 + 3 else t.state
      | none => 0
    .retire (c.modCtx xk fun y => y.setX d.toNat (w64 v))
/-- CPKILL (R213): a queued copy writes no byte, and a running one stops at the next line. Both end KILLED, and write their completion
words as any copy does. -/
def execCpkill (a : BitVec 5) (s : State) : Host.Outcome State Fault Refusal :=
  run s fun e c => issue e c (.cpkill a) { x := [a.toNat] } fun e c xk x =>
    let id := bits (x.getX a.toNat).toNat 0 16
    match (c.core (coreOf xk)).copies.find? (fun n => n.ctx == xk && n.id == id && !n.word) with
    | some n => .retire (((c.markTouched e (coreOf xk) n.op).modCopy (coreOf xk) n.op fun y =>
        { y with running := true, moved := true, status := 0x01 }).setStat xk id 2 0)
    | none => .retire c
/-- MKFULL and MKEMPTY (R214). -/
def mkLines (e : Env) (c : Chip) (xk : Nat) (x : Ctx) (ad : W64) (n : Nat) (full : Bool) : Fate :=
  if !permOk ad || space ad ≠ 1 then .trap 0x09 ad
  else if ad.toNat % 128 ≠ 0 ∨ n % 128 ≠ 0 then .trap 0x05 ad
  else if n = 0 then .retire c
  else match c.spParse ad n with
  | none => .trap 0x06 ad
  | some (ck, off) =>
    if ck = coreOf xk then
      match c.protect xk off n with
      | some code => .trap code ad
      | none =>
        if full && x.cnt .st ≠ 0 then .wait c (.ctrs 63 0 63 63 63)
        else if full then .retire (c.fillLines e.now ck off n)
        else .retire (c.modCore ck fun k => k.setEmpty off n)
    else if x.pend.kind = .line then
      match x.pend.ans with
      | some (.value _ _) => .retire c
      | some (.refused code a) => if x.hasRefused then .wait (c.modCtx xk fun x => { x with pend := {} }) .free else .trap code a
      | none => .wait c .answer
    else if full && x.cnt .st ≠ 0 then .wait c (.ctrs 63 0 63 63 63)
    else .wait ((c.request { src := xk, part := c.serial, vi := x.vi, act := if full then .mkfull n else .mkempty n, va := ad, n := n }).next.modCtx xk
      fun y => { y with pend := { kind := .line, id := c.serial } }) .answer
/-- MKFULL (R214). -/
def execMkfull (a b : BitVec 5) (s : State) : Host.Outcome State Fault Refusal :=
  run s fun e c => issue e c (.mkfull a b) { x := [a.toNat, b.toNat], mem := true } fun e c xk x =>
    mkLines e c xk x (x.getX a.toNat) (x.getX b.toNat).toNat true
/-- MKEMPTY (R214). -/
def execMkempty (a b : BitVec 5) (s : State) : Host.Outcome State Fault Refusal :=
  run s fun e c => issue e c (.mkempty a b) { x := [a.toNat, b.toNat], mem := true } fun e c xk x =>
    mkLines e c xk x (x.getX a.toNat) (x.getX b.toNat).toNat false
/-- FESTAT (R215): an address that lies in no window has no lines, and reads 0 (log 98); a remote one stalls until its reply arrives. -/
def execFestat (a d : BitVec 5) (s : State) : Host.Outcome State Fault Refusal :=
  run s fun e c => issue e c (.festat a d) { x := [d.toNat, a.toNat], mem := true } fun _ c xk x =>
    let ad := x.getX a.toNat
    if !permOk ad || space ad ≠ 1 then .trap 0x09 ad
    else match c.spParse ad 1 with
    | none => .retire (c.modCtx xk fun y => y.setX d.toNat 0)
    | some (ck, off) =>
      if ck = coreOf xk then .retire (c.modCtx xk fun y => y.setX d.toNat (c.festat xk ck off x.vi))
      else if x.pend.kind = .festat then
        match x.pend.ans with
        | some (.value v _) => .retire (c.modCtx xk fun y => y.setX d.toNat v)
        | some (.refused code b) => .trap code b
        | none => .wait c .answer
      else .wait ((c.request { src := xk, part := c.serial, vi := x.vi, act := .festat, va := ad, n := 1 }).next.modCtx xk
        fun y => { y with pend := { kind := .festat, id := c.serial } }) .answer
/-- WADDR (R216): a fault at the home is a receiver fault (log 18). -/
def execWaddr (a b : BitVec 5) (s : State) : Host.Outcome State Fault Refusal :=
  run s fun e c => issue e c (.waddr a b) { x := [a.toNat, b.toNat], mem := true } fun _ c xk x =>
    let ad := x.getX a.toNat
    if x.pend.kind = .waddr then
      match x.pend.ans with
      | some (.value _ _) => .retire c
      | some (.refused code t) => if x.hasRefused then .wait (c.modCtx xk fun x => { x with pend := {} }) .free else .stay (c.trap xk true code x.pc t)
      | none => .wait c .answer
    else match c.check xk ad 8 8 with
      | some code => .trap code ad
      | none => match x.lostOver ad 8 with
        | some h => c.takeLost xk h ad
        | none => .wait ((c.request { src := xk, part := c.serial, vi := x.vi, act := .waddr (x.getX b.toNat), va := ad, n := 8, cached := true }).next.modCtx xk
          fun y => { y with pend := { kind := .waddr, id := c.serial } }) .answer

end Sys2Proof.Machine
end

