-- ==== Sys2Proof/Machine/Float.lean ====
section
/-! DEFINITION. Scalar floating point (R234 to R240). -/
namespace Sys2Proof.Machine
open Sys2Proof

/-- A scalar floating-point instruction: the result goes to xd and its flags to FPFLAGS when it retires (R227, R234). -/
def fpScalar (i : Instr) (used : List Nat) (d : Nat) (f : Ctx → W64 × BitVec 6) (s : State) : Host.Outcome State Fault Refusal :=
  run s fun e c => issue e c i { x := d :: used } fun _ c xk x =>
    let (r, fl) := f x
    .retire (c.modCtx xk fun y => (y.setX d r).flag fl)
/-- Two float sources, a float result, rounded by FPRND with sat = 0 (R234, R235). -/
def fp2 (i : Instr) (d a b : BitVec 5) (t : BitVec 1) (f : Nat → Nat → Nat → Nat → Nat × BitVec 6) (s : State) : Host.Outcome State Fault Refusal :=
  fpScalar i [a.toNat, b.toNat] d.toNat (fun x =>
    let (r, fl) := f t.toNat (ofX t.toNat (x.getX a.toNat)) (ofX t.toNat (x.getX b.toNat)) x.fprnd.toNat
    (xOf t.toNat r, fl)) s
/-- Two float sources and a truth value (R237). -/
def fpCmp (i : Instr) (d a b : BitVec 5) (t : BitVec 1) (f : Nat → Nat → Nat → Bool × BitVec 6) (s : State) : Host.Outcome State Fault Refusal :=
  fpScalar i [a.toNat, b.toNat] d.toNat (fun x =>
    let (r, fl) := f t.toNat (ofX t.toNat (x.getX a.toNat)) (ofX t.toNat (x.getX b.toNat))
    (b64 r, fl)) s
/-- xa times xb plus or minus xd (R235). -/
def fp3 (i : Instr) (d a b : BitVec 5) (t : BitVec 1) (sub : Bool) (s : State) : Host.Outcome State Fault Refusal :=
  fpScalar i [a.toNat, b.toNat] d.toNat (fun x =>
    let (r, fl) := fpFma t.toNat (ofX t.toNat (x.getX a.toNat)) (ofX t.toNat (x.getX b.toNat)) (ofX t.toNat (x.getX d.toNat)) x.fprnd.toNat sub false
    (xOf t.toNat r, fl)) s

/-- FADD (R235). -/
def execFadd (d a b : BitVec 5) (t : BitVec 1) (s : State) : Host.Outcome State Fault Refusal := fp2 (.fadd d a b t) d a b t (fun t u v r => fpAdd t u v r false) s
/-- FSUB (R235). -/
def execFsub (d a b : BitVec 5) (t : BitVec 1) (s : State) : Host.Outcome State Fault Refusal := fp2 (.fsub d a b t) d a b t (fun t u v r => fpSub t u v r false) s
/-- FMUL (R235). -/
def execFmul (d a b : BitVec 5) (t : BitVec 1) (s : State) : Host.Outcome State Fault Refusal := fp2 (.fmul d a b t) d a b t (fun t u v r => fpMul t u v r false) s
/-- FDIV (R235). -/
def execFdiv (d a b : BitVec 5) (t : BitVec 1) (s : State) : Host.Outcome State Fault Refusal := fp2 (.fdiv d a b t) d a b t (fun t u v r => fpDiv t u v r false) s
/-- FMIN (R236). -/
def execFmin (d a b : BitVec 5) (t : BitVec 1) (s : State) : Host.Outcome State Fault Refusal := fp2 (.fmin d a b t) d a b t (fun t u v _ => fpMin t u v) s
/-- FMAX (R236). -/
def execFmax (d a b : BitVec 5) (t : BitVec 1) (s : State) : Host.Outcome State Fault Refusal := fp2 (.fmax d a b t) d a b t (fun t u v _ => fpMax t u v) s
/-- FCEQ (R237). -/
def execFceq (d a b : BitVec 5) (t : BitVec 1) (s : State) : Host.Outcome State Fault Refusal := fpCmp (.fceq d a b t) d a b t fpEq s
/-- FCLT (R237). -/
def execFclt (d a b : BitVec 5) (t : BitVec 1) (s : State) : Host.Outcome State Fault Refusal := fpCmp (.fclt d a b t) d a b t fpLt s
/-- FCLE (R237). -/
def execFcle (d a b : BitVec 5) (t : BitVec 1) (s : State) : Host.Outcome State Fault Refusal := fpCmp (.fcle d a b t) d a b t fpLe s
/-- FFMA (R235). -/
def execFfma (d a b : BitVec 5) (t : BitVec 1) (s : State) : Host.Outcome State Fault Refusal := fp3 (.ffma d a b t) d a b t false s
/-- FFMS (R235). -/
def execFfms (d a b : BitVec 5) (t : BitVec 1) (s : State) : Host.Outcome State Fault Refusal := fp3 (.ffms d a b t) d a b t true s
/-- FSQRT (R235). -/
def execFsqrt (d a : BitVec 5) (t : BitVec 1) (s : State) : Host.Outcome State Fault Refusal :=
  fpScalar (.fsqrt d a t) [a.toNat] d.toNat (fun x =>
    let (r, fl) := fpSqrt t.toNat (ofX t.toNat (x.getX a.toNat)) x.fprnd.toNat false
    (xOf t.toNat r, fl)) s
/-- FCLASS (R239). -/
def execFclass (d a : BitVec 5) (t : BitVec 1) (s : State) : Host.Outcome State Fault Refusal :=
  fpScalar (.fclass d a t) [a.toNat] d.toNat (fun x => (w64 (2 ^ fpClass t.toNat (ofX t.toNat (x.getX a.toNat))), 0)) s
/-- The rounding and saturation of an instruction: its prefix, or FPRND and sat = 0 (R222, R226, R238). -/
def Ctx.rounding (x : Ctx) : Nat × Bool :=
  match x.fmt with
  | some w => (bits w.toNat 16 2, bit w.toNat 14)
  | none => (x.fprnd.toNat, false)
/-- FCVT (R238). -/
def execFcvt (d a : BitVec 5) (st dt : BitVec 4) (s : State) : Host.Outcome State Fault Refusal :=
  fpScalar (.fcvt d a st dt) [a.toNat] d.toNat (fun x =>
    let (rnd, sat) := x.rounding
    let (r, fl) := convert dt.toNat st.toNat (ofX st.toNat (x.getX a.toNat)) rnd sat
    (xOf dt.toNat r, fl)) s

end Sys2Proof.Machine
end

