-- ==== Sys2Proof/Machine/Vector.lean ====
section
/-! DEFINITION. Vector instructions (R241 to R262). -/
namespace Sys2Proof.Machine
open Sys2Proof

/-! ### Lanes (R241, R242) -/

/-- A destination register of type `t`, lane by lane under a mask, and the flags of its active lanes. -/
def vecMap (t : Nat) (k : W64) (old : VReg) (f : Nat → Nat × BitVec 6) : VReg × BitVec 6 :=
  let w := tyW t
  let l := (List.range (lanes t)).map fun i => if active k i then f i else (lane old w i, 0)
  (vecOf w (l.map (·.1)), l.foldl (fun a p => a ||| p.2) 0)
/-- Lane `i` of a vector register of a context. -/
def Ctx.ln (x : Ctx) (t r i : Nat) : Nat := lane (x.getV r) (tyW t) i
/-- A vector instruction: it computes the context anew and touches nothing else. -/
def vecOp (i : Instr) (vs xs : List Nat) (f : Ctx → Ctx) (s : State) : Host.Outcome State Fault Refusal :=
  run s fun e c => issue e c i { v := vs, x := xs } fun _ c xk _ => .retire (c.modCtx xk f)
/-- Two vector sources, one result per lane; flags go to FPFLAGS (R227, R243). `f` has type, lane number, the lanes of va, vb
and vd, and the rounding of FPRND. -/
def vec2 (i : Instr) (d a b : BitVec 5) (k : BitVec 3) (t : BitVec 4) (f : Nat → Nat → Nat → Nat → Nat → Nat × BitVec 6) (s : State) :
    Host.Outcome State Fault Refusal :=
  vecOp i [d.toNat, a.toNat, b.toNat] [] (fun x =>
    let (v, fl) := vecMap t.toNat (x.getK k.toNat) (x.getV d.toNat) fun n =>
      f t.toNat (x.ln t.toNat a.toNat n) (x.ln t.toNat b.toNat n) (x.ln t.toNat d.toNat n) x.fprnd.toNat
    (x.setV d.toNat v).flag fl) s
/-- One vector source. -/
def vec1 (i : Instr) (d a : BitVec 5) (k : BitVec 3) (t : BitVec 4) (f : Nat → Nat → Nat × BitVec 6) (s : State) : Host.Outcome State Fault Refusal :=
  vecOp i [d.toNat, a.toNat] [] (fun x =>
    let (v, fl) := vecMap t.toNat (x.getK k.toNat) (x.getV d.toNat) fun n => f t.toNat (x.ln t.toNat a.toNat n)
    (x.setV d.toNat v).flag fl) s

/-! ### Element arithmetic (R245 to R247) -/

/-- An operation on a float type or, modulo 2^w, on an integer type. -/
def laneOp (t : Nat) (fl : Unit → Nat × BitVec 6) (i : Int) : Nat × BitVec 6 := if tyIsFloat t then fl () else (intBits t i, 0)
/-- The smaller or the larger of two lanes (R246). -/
def laneMinMax (t u v : Nat) (max : Bool) : Nat × BitVec 6 :=
  if tyIsFloat t then (if max then fpMax t u v else fpMin t u v)
  else (if decide (intVal t u < intVal t v) = max then v else u, 0)
/-- |u| or −u (R247). -/
def laneSign (t u : Nat) (neg : Bool) : Nat × BitVec 6 :=
  if tyIsFloat t then
    (if (unpack t u).isNaN then (canonNaN t, fIf (unpack t u).sig fNV)
     else (withSign t (neg && !bit u (tyW t - 1)) (u % 2 ^ (tyW t - 1)), 0))
  else (intBits t (if neg then -intVal t u else (intVal t u).natAbs), 0)
/-- The comparison of two lanes (R248): 0 equal, 1 less than, 2 less than or equal. -/
def laneCmp (op t u v : Nat) : Bool × BitVec 6 :=
  if tyIsFloat t then (match op with | 0 => fpEq t u v | 1 => fpLt t u v | _ => fpLe t u v)
  else
    let p := intVal t u
    let q := intVal t v
    (match op with | 0 => p == q | 1 => decide (p < q) | _ => decide (p ≤ q), 0)

/-- VADD (R246). -/
def execVadd (d a b : BitVec 5) (k : BitVec 3) (t : BitVec 4) (s : State) : Host.Outcome State Fault Refusal := vec2 (.vadd d a b k t) d a b k t (fun t u v _ r => laneOp t (fun _ => fpAdd t u v r false) (u + v)) s
/-- VSUB (R246). -/
def execVsub (d a b : BitVec 5) (k : BitVec 3) (t : BitVec 4) (s : State) : Host.Outcome State Fault Refusal := vec2 (.vsub d a b k t) d a b k t (fun t u v _ r => laneOp t (fun _ => fpSub t u v r false) (u - v)) s
/-- VMUL (R246). -/
def execVmul (d a b : BitVec 5) (k : BitVec 3) (t : BitVec 4) (s : State) : Host.Outcome State Fault Refusal := vec2 (.vmul d a b k t) d a b k t (fun t u v _ r => laneOp t (fun _ => fpMul t u v r false) (u * v)) s
/-- VFMA (R246). -/
def execVfma (d a b : BitVec 5) (k : BitVec 3) (t : BitVec 4) (s : State) : Host.Outcome State Fault Refusal := vec2 (.vfma d a b k t) d a b k t (fun t u v c r => fpFma t u v c r false false) s
/-- VFMS (R246). -/
def execVfms (d a b : BitVec 5) (k : BitVec 3) (t : BitVec 4) (s : State) : Host.Outcome State Fault Refusal := vec2 (.vfms d a b k t) d a b k t (fun t u v c r => fpFma t u v c r true false) s
/-- VMIN (R246). -/
def execVmin (d a b : BitVec 5) (k : BitVec 3) (t : BitVec 4) (s : State) : Host.Outcome State Fault Refusal := vec2 (.vmin d a b k t) d a b k t (fun t u v _ _ => laneMinMax t u v false) s
/-- VMAX (R246). -/
def execVmax (d a b : BitVec 5) (k : BitVec 3) (t : BitVec 4) (s : State) : Host.Outcome State Fault Refusal := vec2 (.vmax d a b k t) d a b k t (fun t u v _ _ => laneMinMax t u v true) s
/-- VAND (R246). -/
def execVand (d a b : BitVec 5) (k : BitVec 3) (t : BitVec 4) (s : State) : Host.Outcome State Fault Refusal := vec2 (.vand d a b k t) d a b k t (fun _ u v _ _ => (u &&& v, 0)) s
/-- VOR (R246). -/
def execVor (d a b : BitVec 5) (k : BitVec 3) (t : BitVec 4) (s : State) : Host.Outcome State Fault Refusal := vec2 (.vor d a b k t) d a b k t (fun _ u v _ _ => (u ||| v, 0)) s
/-- VXOR (R246). -/
def execVxor (d a b : BitVec 5) (k : BitVec 3) (t : BitVec 4) (s : State) : Host.Outcome State Fault Refusal := vec2 (.vxor d a b k t) d a b k t (fun _ u v _ _ => (u ^^^ v, 0)) s
/-- VSLL (R246). -/
def execVsll (d a b : BitVec 5) (k : BitVec 3) (t : BitVec 4) (s : State) : Host.Outcome State Fault Refusal := vec2 (.vsll d a b k t) d a b k t (fun t u v _ _ => (u * 2 ^ (v % tyW t) % 2 ^ tyW t, 0)) s
/-- VSRL (R246). -/
def execVsrl (d a b : BitVec 5) (k : BitVec 3) (t : BitVec 4) (s : State) : Host.Outcome State Fault Refusal := vec2 (.vsrl d a b k t) d a b k t (fun t u v _ _ => (u / 2 ^ (v % tyW t), 0)) s
/-- VSRA (R246). -/
def execVsra (d a b : BitVec 5) (k : BitVec 3) (t : BitVec 4) (s : State) : Host.Outcome State Fault Refusal := vec2 (.vsra d a b k t) d a b k t (fun t u v _ _ => (intBits t (intVal t u / 2 ^ (v % tyW t)), 0)) s
/-- VABS (R247). -/
def execVabs (d a : BitVec 5) (k : BitVec 3) (t : BitVec 4) (s : State) : Host.Outcome State Fault Refusal := vec1 (.vabs d a k t) d a k t (fun t u => laneSign t u false) s
/-- VNEG (R247). -/
def execVneg (d a : BitVec 5) (k : BitVec 3) (t : BitVec 4) (s : State) : Host.Outcome State Fault Refusal := vec1 (.vneg d a k t) d a k t (fun t u => laneSign t u true) s

/-! ### Compare, select and reduce (R248 to R250) -/

/-- A vector comparison into a mask register: all 64 bits of kd are written (R248). -/
def vecCmp (i : Instr) (op : Nat) (d a b : BitVec 5) (k : BitVec 3) (t : BitVec 4) (s : State) : Host.Outcome State Fault Refusal :=
  vecOp i [a.toNat, b.toNat] [] (fun x =>
    let l := (List.range (lanes t.toNat)).map fun n =>
      if active (x.getK k.toNat) n then laneCmp op t.toNat (x.ln t.toNat a.toNat n) (x.ln t.toNat b.toNat n) else (false, 0)
    (x.setK d.toNat (w64 (ofLanes 1 (l.map fun p => bn p.1)))).flag (l.foldl (fun a p => a ||| p.2) 0)) s
/-- VCMPEQ (R248). -/
def execVcmpeq (d a b : BitVec 5) (k : BitVec 3) (t : BitVec 4) (s : State) : Host.Outcome State Fault Refusal := vecCmp (.vcmpeq d a b k t) 0 d a b k t s
/-- VCMPLT (R248). -/
def execVcmplt (d a b : BitVec 5) (k : BitVec 3) (t : BitVec 4) (s : State) : Host.Outcome State Fault Refusal := vecCmp (.vcmplt d a b k t) 1 d a b k t s
/-- VCMPLE (R248). -/
def execVcmple (d a b : BitVec 5) (k : BitVec 3) (t : BitVec 4) (s : State) : Host.Outcome State Fault Refusal := vecCmp (.vcmple d a b k t) 2 d a b k t s
/-- VSEL (R249): the mask chooses, and every lane is written. -/
def execVsel (d a b : BitVec 5) (k : BitVec 3) (t : BitVec 4) (s : State) : Host.Outcome State Fault Refusal :=
  vecOp (.vsel d a b k t) [d.toNat, a.toNat, b.toNat] [] (fun x =>
    x.setV d.toNat (vecOf (tyW t.toNat) ((List.range (lanes t.toNat)).map fun n =>
      x.ln t.toNat (if active (x.getK k.toNat) n then a.toNat else b.toNat) n))) s
/-- A reduction: lane 0 receives it and the other lanes zero (R250). -/
def vecRed (i : Instr) (d a : BitVec 5) (k : BitVec 3) (t : BitVec 4) (f : Nat → List Nat → Nat → Nat × BitVec 6) (s : State) :
    Host.Outcome State Fault Refusal :=
  vecOp i [d.toNat, a.toNat] [] (fun x =>
    let (r, fl) := f t.toNat (((List.range (lanes t.toNat)).filter (active (x.getK k.toNat))).map (x.ln t.toNat a.toNat)) x.fprnd.toNat
    (x.setV d.toNat (vecOf (tyW t.toNat) [r])).flag fl) s
/-- The sum of lanes: exact, then one rounding for floats (R250). -/
def redAdd (t : Nat) (l : List Nat) (rnd : Nat) : Nat × BitVec 6 :=
  if tyIsFloat t then
    let vs := l.map (unpack t)
    let p := vs.contains (.inf false)
    let n := vs.contains (.inf true)
    if vs.any (·.isNaN) || (p && n) then (canonNaN t, fIf (vs.any (·.sig) || (p && n)) fNV)
    else if p then (infBits t, 0)
    else if n then (withSign t true (infBits t), 0)
    else match vs with
      | [] => (0, 0)
      | v :: r => pack t (r.foldl (fun a b => (FVal.add rnd a b).1) v) rnd false
  else (l.foldl (· + ·) 0 % 2 ^ tyW t, 0)
/-- The extreme of lanes (R250); with no active lane the neutral value. -/
def redExt (max : Bool) (t : Nat) (l : List Nat) : Nat × BitVec 6 :=
  if tyIsFloat t then
    (if l.isEmpty then (withSign t max (infBits t), 0)
     else l.foldl (fun a u => let (r, f) := laneMinMax t a.1 u max; (r, a.2 ||| f)) (canonNaN t, 0))
  else (l.foldl (fun a u => (laneMinMax t a u max).1) (intBits t (if max then intMin t else intMax t)), 0)
/-- The largest magnitude of lanes (R250). -/
def redAmax (t : Nat) (l : List Nat) : Nat × BitVec 6 :=
  let vs := l.map (unpack t)
  if vs.any (·.isNaN) then (canonNaN t, fIf (vs.any (·.sig)) fNV)
  else (l.foldl (fun a u => Nat.max a (u % 2 ^ (tyW t - 1))) 0, 0)
/-- VREDADD (R250). -/
def execVredadd (d a : BitVec 5) (k : BitVec 3) (t : BitVec 4) (s : State) : Host.Outcome State Fault Refusal := vecRed (.vredadd d a k t) d a k t redAdd s
/-- VREDMAX (R250). -/
def execVredmax (d a : BitVec 5) (k : BitVec 3) (t : BitVec 4) (s : State) : Host.Outcome State Fault Refusal :=
  vecRed (.vredmax d a k t) d a k t (fun t l _ => redExt true t l) s
/-- VREDMIN (R250). -/
def execVredmin (d a : BitVec 5) (k : BitVec 3) (t : BitVec 4) (s : State) : Host.Outcome State Fault Refusal :=
  vecRed (.vredmin d a k t) d a k t (fun t l _ => redExt false t l) s
/-- VAMAX (R250). -/
def execVamax (d a : BitVec 5) (k : BitVec 3) (t : BitVec 4) (s : State) : Host.Outcome State Fault Refusal :=
  vecRed (.vamax d a k t) d a k t (fun t l _ => redAmax t l) s

/-! ### Conversion and quantisation (R251 to R253) -/

/-- VCVT (R251): `st` names the source type. -/
def execVcvt (d a : BitVec 5) (st : BitVec 4) (k : BitVec 3) (t : BitVec 4) (s : State) : Host.Outcome State Fault Refusal :=
  vecOp (.vcvt d a st k t) [d.toNat, a.toNat] [] (fun x =>
    let (rnd, sat) := x.rounding
    let n := Nat.min (lanes st.toNat) (lanes t.toNat)
    let l := (List.range (lanes t.toNat)).map fun i =>
      if n ≤ i then (0, 0)
      else if active (x.getK k.toNat) i then convert t.toNat st.toNat (x.ln st.toNat a.toNat i) rnd sat
      else (x.ln t.toNat d.toNat i, 0)
    (x.setV d.toNat (vecOf (tyW t.toNat) (l.map (·.1)))).flag (l.foldl (fun a p => a ||| p.2) 0)) s
/-- VQNT (R252): without a prefix it saturates. -/
def execVqnt (d a b : BitVec 5) (k : BitVec 3) (t : BitVec 4) (s : State) : Host.Outcome State Fault Refusal :=
  vecOp (.vqnt d a b k t) [d.toNat, a.toNat, b.toNat] [] (fun x =>
    let (rnd, sat) := match x.fmt with | some _ => x.rounding | none => (x.fprnd.toNat, true)
    let l := (List.range 64).map fun i =>
      if 16 ≤ i then (0, 0)
      else if active (x.getK k.toNat) i then
        let (p, f) := FVal.mul (unpack 0 (x.ln 0 a.toNat i)) (unpack 0 (x.ln 0 b.toNat i))
        let (r, g) := convVal t.toNat p rnd sat
        (r, f ||| g)
      else (x.ln t.toNat d.toNat i, 0)
    (x.setV d.toNat (vecOf 8 (l.map (·.1)))).flag (l.foldl (fun a p => a ||| p.2) 0)) s
/-- VDQNT (R253). -/
def execVdqnt (d a b : BitVec 5) (k : BitVec 3) (t : BitVec 4) (s : State) : Host.Outcome State Fault Refusal :=
  vecOp (.vdqnt d a b k t) [d.toNat, a.toNat, b.toNat] [] (fun x =>
    let (rnd, sat) := x.rounding
    let (v, fl) := vecMap 0 (x.getK k.toNat) (x.getV d.toNat) fun i =>
      let u := lane (x.getV a.toNat) 8 i
      let p := if t.toNat = 6 then FVal.num (decide (intVal 6 u < 0)) (intVal 6 u).natAbs 0 else unpack t.toNat u
      packOp 0 (FVal.mul p (unpack 0 (x.ln 0 b.toNat i))) rnd sat
    (x.setV d.toNat v).flag fl) s

/-! ### Approximations (R254, R255) -/

/-- Fraction bits of an approximation (R254). -/
def approxBits (t : Nat) : Nat := match t with | 2 => 7 | 3 => 10 | _ => 11
/-- An exact value rounded to the precision of R254. A 2^u exactly halfway between 0 and the smallest subnormal goes to the even one, +0:
R254 gives no tie rule (DESIGN CHOICE, log 110). -/
def approx (t : Nat) (r : FVal × BitVec 6) : Nat × BitVec 6 :=
  match r.1 with
  | .num s m e => let (v, f) := roundPrec t (approxBits t) s m e 0 false; (v, f ||| r.2)
  | v => let (w, f) := pack t v 0 false; (w, f ||| r.2)
/-- 2^(2^-1), 2^(2^-2), ... in fixed point of 256 bits, multiplied where the fraction's bits are set: bit `n - 1` first (log 16). -/
def exp2Frac (fr : Nat) : Nat → Nat → Nat → Nat
  | 0, _, acc => acc
  | n + 1, root, acc => exp2Frac fr n (isqrt (root * 2 ^ 256) 258 0) (if bit fr n then acc * root / 2 ^ 256 else acc)
/-- 2^u for a finite u, to more bits than any format needs, with a sticky last bit (R254, log 16). -/
def exp2Val (u : FVal) : FVal × BitVec 6 :=
  match u with
  | .nan a => (.nan false, fIf a fNV)
  | .inf s => (if s then .num false 0 0 else .inf false, 0)
  | .num s m e =>
    if m = 0 then (.num false 1 0, 0)
    else if (12 : Int) < (Nat.log2 m : Int) + e then (.num false 1 (if s then -5000 else 5000), 0)
    else
      -- u in units of 2^-128, rounded towards minus infinity, and whether that is exact
      let (q, x) := if 0 ≤ e + 128 then (sgnInt s (m * 2 ^ (e + 128).toNat), true)
        else (sgnInt s m / 2 ^ (-(e + 128)).toNat, decide (m % 2 ^ (-(e + 128)).toNat = 0))
      let fr := (q % 2 ^ 128).toNat
      let n := q / 2 ^ 128
      if fr = 0 ∧ x then (.num false 1 n, 0)
      else (.num false (2 * exp2Frac fr 128 (isqrt (2 ^ 513) 258 0) (2 ^ 256) + 1) (n - 257), 0)
/-- The binary digits of log2 of x / 2^400, for x in [2^400, 2^401), by repeated squaring (log 16). -/
def log2Digits : Nat → Nat → Nat → Nat
  | 0, _, acc => acc
  | n + 1, x, acc =>
    let y := x * x / 2 ^ 400
    if 2 ^ 401 ≤ y then log2Digits n (y / 2) (2 * acc + 1) else log2Digits n y (2 * acc)
/-- log2 u (R254, R255, log 16). -/
def log2Val (u : FVal) : FVal × BitVec 6 :=
  match u with
  | .nan a => (.nan false, fIf a fNV)
  | .inf s => if s then (.nan false, fNV) else (.inf false, 0)
  | .num s m e =>
    if m = 0 then (.inf true, fDZ)
    else if s then (.nan false, fNV)
    else
      let l := Nat.log2 m
      let n : Int := (l : Int) + e
      if m = 2 ^ l then (.num (decide (n < 0)) n.natAbs 0, 0)
      else
        let i := n * 2 ^ 160 + (log2Digits 160 (m * 2 ^ (400 - l)) 0 : Nat)
        (if 0 ≤ i then .num false (2 * i.natAbs + 1) (-161) else .num true (2 * i.natAbs - 1) (-161), 0)
/-- 1 ÷ √u (R254, R255). -/
def rsqVal (u : FVal) : FVal × BitVec 6 :=
  match u with
  | .nan a => (.nan false, fIf a fNV)
  | .inf s => if s then (.nan false, fNV) else (.num false 0 0, 0)
  | .num s m e =>
    if m = 0 then (.inf s, fDZ)
    else if s then (.nan false, fNV)
    else
      let m := m * 2 ^ (e % 2).toNat
      let k := 60 + Nat.log2 m
      let r := isqrt (2 ^ (2 * k) / m) (k + 1) 0
      (.num false (2 * r + bn (r * r * m ≠ 2 ^ (2 * k))) (-(e / 2) - k - 1), 0)
/-- VEXP2 (R254). -/
def execVexp2 (d a : BitVec 5) (k : BitVec 3) (t : BitVec 4) (s : State) : Host.Outcome State Fault Refusal :=
  vec1 (.vexp2 d a k t) d a k t (fun t u => approx t (exp2Val (unpack t u))) s
/-- VLOG2 (R254). -/
def execVlog2 (d a : BitVec 5) (k : BitVec 3) (t : BitVec 4) (s : State) : Host.Outcome State Fault Refusal :=
  vec1 (.vlog2 d a k t) d a k t (fun t u => approx t (log2Val (unpack t u))) s
/-- VRCP (R254). -/
def execVrcp (d a : BitVec 5) (k : BitVec 3) (t : BitVec 4) (s : State) : Host.Outcome State Fault Refusal :=
  vec1 (.vrcp d a k t) d a k t (fun t u => approx t (FVal.div (.num false 1 0) (unpack t u))) s
/-- VRSQ (R254). -/
def execVrsq (d a : BitVec 5) (k : BitVec 3) (t : BitVec 4) (s : State) : Host.Outcome State Fault Refusal :=
  vec1 (.vrsq d a k t) d a k t (fun t u => approx t (rsqVal (unpack t u))) s

/-! ### Permutes and moves (R256, R257) -/

/-- VPERM (R256). -/
def execVperm (d a b : BitVec 5) (k : BitVec 3) (t : BitVec 4) (s : State) : Host.Outcome State Fault Refusal :=
  vecOp (.vperm d a b k t) [d.toNat, a.toNat, b.toNat] [] (fun x =>
    x.setV d.toNat (vecMap t.toNat (x.getK k.toNat) (x.getV d.toNat) fun i =>
      (x.ln t.toNat a.toNat (x.ln t.toNat b.toNat i % lanes t.toNat), 0)).1) s
/-- VSHUF (R256): vd is the second table. -/
def execVshuf (d a b : BitVec 5) (k : BitVec 3) (t : BitVec 4) (s : State) : Host.Outcome State Fault Refusal :=
  vecOp (.vshuf d a b k t) [d.toNat, a.toNat, b.toNat] [] (fun x =>
    x.setV d.toNat (vecMap t.toNat (x.getK k.toNat) (x.getV d.toNat) fun i =>
      let n := lanes t.toNat
      let j := x.ln t.toNat b.toNat i % (2 * n)
      (if j < n then x.ln t.toNat a.toNat j else x.ln t.toNat d.toNat (j - n), 0)).1) s
/-- VBCAST (R257). -/
def execVbcast (d a : BitVec 5) (k : BitVec 3) (t : BitVec 4) (s : State) : Host.Outcome State Fault Refusal :=
  vecOp (.vbcast d a k t) [d.toNat] [a.toNat] (fun x =>
    x.setV d.toNat (vecMap t.toNat (x.getK k.toNat) (x.getV d.toNat) fun _ => (ofX t.toNat (x.getX a.toNat), 0)).1) s
/-- VEXT (R257). -/
def execVext (d a b : BitVec 5) (t : BitVec 4) (s : State) : Host.Outcome State Fault Refusal :=
  vecOp (.vext d a b t) [a.toNat] [d.toNat, b.toNat] (fun x =>
    x.setX d.toNat (xOf t.toNat (x.ln t.toNat a.toNat ((x.getX b.toNat).toNat % lanes t.toNat)))) s
/-- VINS (R257). -/
def execVins (d a b : BitVec 5) (t : BitVec 4) (s : State) : Host.Outcome State Fault Refusal :=
  vecOp (.vins d a b t) [d.toNat] [a.toNat, b.toNat] (fun x =>
    x.setV d.toNat (vecMap t.toNat (w64 (2 ^ ((x.getX b.toNat).toNat % lanes t.toNat))) (x.getV d.toNat) fun _ => (ofX t.toNat (x.getX a.toNat), 0)).1) s

/-! ### Vector memory (R258 to R260) -/

/-- The pieces of a vector access, active lanes in ascending order: offset in the register, address, bytes. -/
def lanePieces (x : Ctx) (k : BitVec 3) (t : BitVec 4) (f : Nat → W64) : List Piece :=
  ((List.range (lanes t.toNat)).filter (active (x.getK k.toNat))).map fun i => (i * (tyW t.toNat / 8), f i, tyW t.toNat / 8)
/-- A vector load. -/
def vecLoad (i : Instr) (d a : BitVec 5) (vs xs : List Nat) (k : BitVec 3) (t : BitVec 4) (f : Ctx → Nat → W64) (s : State) :
    Host.Outcome State Fault Refusal :=
  run s fun e c => issue e c i { x := a.toNat :: xs, v := d.toNat :: vs, mem := true, ctr := .ld } fun e c xk x =>
    loadFate e c xk x (tyW t.toNat / 8) .load (.v d.toNat) .load true (lanePieces x k t (f x))
/-- A vector store. -/
def vecStore (i : Instr) (d a : BitVec 5) (vs xs : List Nat) (k : BitVec 3) (t : BitVec 4) (f : Ctx → Nat → W64) (s : State) :
    Host.Outcome State Fault Refusal :=
  run s fun e c => issue e c i { x := a.toNat :: xs, v := d.toNat :: vs, mem := true, ctr := .st } fun e c xk x =>
    storeFate e c xk x (tyW t.toNat / 8) .store .none ((lanePieces x k t (f x)).map fun p => (p.2.1, ((vecBytes (x.getV d.toNat)).drop p.1).take p.2.2))
/-- The address of lane `i` of a contiguous vector (R258). -/
def eaUnit (a : BitVec 5) (t : BitVec 4) (x : Ctx) (i : Nat) : W64 := x.getX a.toNat + w64 (i * (tyW t.toNat / 8))
/-- The address of lane `i` of a strided vector (R258). -/
def eaStride (a b : BitVec 5) (x : Ctx) (i : Nat) : W64 := x.getX a.toNat + w64 i * x.getX b.toNat
/-- The address of lane `i` of a gather or scatter (R258). -/
def eaIndex (a b : BitVec 5) (t : BitVec 4) (x : Ctx) (i : Nat) : W64 :=
  x.getX a.toNat + sxt (tyW t.toNat) (x.ln t.toNat b.toNat i) * w64 (tyW t.toNat / 8)
/-- VLD (R258). -/
def execVld (d a : BitVec 5) (k : BitVec 3) (t : BitVec 4) (s : State) : Host.Outcome State Fault Refusal := vecLoad (.vld d a k t) d a [] [] k t (eaUnit a t) s
/-- VST (R258). -/
def execVst (d a : BitVec 5) (k : BitVec 3) (t : BitVec 4) (s : State) : Host.Outcome State Fault Refusal := vecStore (.vst d a k t) d a [] [] k t (eaUnit a t) s
/-- VLDS (R258). -/
def execVlds (d a b : BitVec 5) (k : BitVec 3) (t : BitVec 4) (s : State) : Host.Outcome State Fault Refusal :=
  vecLoad (.vlds d a b k t) d a [] [b.toNat] k t (eaStride a b) s
/-- VSTS (R258). -/
def execVsts (d a b : BitVec 5) (k : BitVec 3) (t : BitVec 4) (s : State) : Host.Outcome State Fault Refusal :=
  vecStore (.vsts d a b k t) d a [] [b.toNat] k t (eaStride a b) s
/-- VGTH (R258). -/
def execVgth (d a b : BitVec 5) (k : BitVec 3) (t : BitVec 4) (s : State) : Host.Outcome State Fault Refusal :=
  vecLoad (.vgth d a b k t) d a [b.toNat] [] k t (eaIndex a b t) s
/-- VSCT (R258). -/
def execVsct (d a b : BitVec 5) (k : BitVec 3) (t : BitVec 4) (s : State) : Host.Outcome State Fault Refusal :=
  vecStore (.vsct d a b k t) d a [b.toNat] [] k t (eaIndex a b t) s

/-! ### Mask instructions (R261) -/

/-- KAND (R261). -/
def execKand (d a b : BitVec 5) (s : State) : Host.Outcome State Fault Refusal :=
  vecOp (.kand d a b) [] [] (fun x => x.setK d.toNat (x.getK a.toNat &&& x.getK b.toNat)) s
/-- KOR (R261). -/
def execKor (d a b : BitVec 5) (s : State) : Host.Outcome State Fault Refusal :=
  vecOp (.kor d a b) [] [] (fun x => x.setK d.toNat (x.getK a.toNat ||| x.getK b.toNat)) s
/-- KNOT (R261). -/
def execKnot (d a : BitVec 5) (s : State) : Host.Outcome State Fault Refusal := vecOp (.knot d a) [] [] (fun x => x.setK d.toNat (~~~x.getK a.toNat)) s
/-- KMOV between mask registers (R261). -/
def execKmov (d a : BitVec 5) (s : State) : Host.Outcome State Fault Refusal := vecOp (.kmov d a) [] [] (fun x => x.setK d.toNat (x.getK a.toNat)) s
/-- KMOV from an x register (R261). -/
def execKmovFromX (d a : BitVec 5) (s : State) : Host.Outcome State Fault Refusal :=
  vecOp (.kmovFromX d a) [] [a.toNat] (fun x => x.setK d.toNat (x.getX a.toNat)) s
/-- KMOV to an x register (R261). -/
def execKmovToX (d a : BitVec 5) (s : State) : Host.Outcome State Fault Refusal :=
  vecOp (.kmovToX d a) [] [d.toNat] (fun x => x.setX d.toNat (x.getK a.toNat)) s

end Sys2Proof.Machine
end

