-- ==== Sys2Proof/Machine/Matrix.lean ====
section
/-! DEFINITION. Tile registers, tile operations, macro-ops and their segments, MGEO (R228 to R232, R263 to R285), and how
a context stops at a boundary (R281, R388). -/
namespace Sys2Proof.Machine
open Sys2Proof

/-! ### Stops (R281, R385, R388) -/

/-- A stop at an instruction boundary: the stop shadow in privileged mode, then the resume point (R388). A context that starts at a
misaligned PC traps at once, before it can stop (R105). -/
def Ctx.stop (x : Ctx) (now : Nat) : Ctx :=
  let x := if x.pc.toNat % 4 = 0 then x else x.take false (if isGlobal x.pc then 0x03 else 0x09) x.pc x.pc
  let sh := if x.priv then some { cause := x.cause, epc := x.epc, tval := x.tval, ppriv := x.ppriv, pend := x.pendPfx && !x.fromPfx,
                                  pfx := x.pfxsave : Shadow } else x.shadow
  { x with st := .halt, was := x.st, stopReq := false, budget := x.budget - (now - x.budgetAt) / x.perCycle, shadow := (match x.shadow with | some s => some s | none => sh),
           epc := w64 (x.pc.toNat / 4 * 4), pendPfx := x.fmt.isSome || (x.fromPfx && x.pendPfx),
           pfxsave := (match x.fmt with | some w => w64 w.toNat | none => x.pfxsave), fmt := none, fromPfx := true, stamp := x.stamp + 1 }
/-- The budget of a handler run is spent (R350). -/
def Ctx.budgetSpent (x : Ctx) (now : Nat) : Bool :=
  x.kind == .handler && !x.noBudget && x.mop.isNone && x.pend.kind != .save && (x.st == .ready || x.st == .stall) && decide (x.budgetAt + x.budget * x.perCycle ≤ now)
/-- A receiver event is due at the boundary at which the context stands: not while an instruction waits for its own answer (R460), nor
before a macro-op that resumes has retired (R281). -/
def Ctx.recvDue (x : Ctx) : Bool := (x.hasRefused && x.pend.kind == .none || x.upcallDue) && !x.seqValid
/-- The budget's trap is due at the boundary at which the context stands: after a receiver event (R350, R375). -/
def Ctx.hbudgetDue (x : Ctx) (now : Nat) : Bool := x.budgetSpent now && !(x.hasRefused && !x.seqValid)
/-- A stop request is pending and the context stands at a boundary that no receiver event and no HBUDGET come before (R375); one in
STALL halts at once (R386). A repair is never pre-empted (R298). -/
def Ctx.stopIfAsked (x : Ctx) (now : Nat) : Ctx :=
  if x.stopReq && x.mop.isNone && !x.recvDue && !(x.hbudgetDue now && x.ending.isNone) && x.repair.isNone && x.st != .halt && x.st != .idle then x.stop now else x

/-! ### Shapes and tile faults (R264, R265, R272) -/

/-- ROWS, COLS, TYPE of a shape (R264). -/
structure Shape where
  rows : Nat
  cols : Nat
  ty : Nat
  deriving DecidableEq, Repr

/-- The shape of m`n`, its type replaced by a prefix (R276). -/
def Ctx.shape (x : Ctx) (n : Nat) (t : Option Nat) : Shape :=
  let v := (x.msh.get 0 n).toNat
  ⟨bits v 0 16, bits v 16 16, t.getD (bits v 32 4)⟩
/-- The area of a shape in bytes (R265). -/
def Shape.area (s : Shape) : Nat := s.rows * s.cols * tyW s.ty / 8
/-- R265. -/
def Shape.valid (s : Shape) : Bool := decide (s.ty ≤ 13 ∧ 1 ≤ s.rows ∧ 1 ≤ s.cols ∧ s.area ≤ 16384)
/-- TVAL of TSHAPE (R272). -/
def tshape (reason operand : Nat) : W64 := w64 (reason + operand * 256)
/-- The first operand, in order, whose check fails. -/
def firstBad (l : List Bool) : Option Nat := (List.range l.length).find? fun i => l.getD i false
/-- The checks UNBOUND, BADSHAPE, BADTYPE and DIMS of R272, in order: for each operand its register, shape, whether its type is
refused and whether it is the first of a broken relation. -/
def tileCheck (x : Ctx) (l : List (Nat × Shape × Bool × Bool)) : Option W64 :=
  match firstBad (l.map fun o => !x.tiles.contains o.1) with
  | some i => some (tshape 1 i)
  | none =>
    match firstBad (l.map fun o => !o.2.1.valid) with
    | some i => some (tshape 3 i)
    | none =>
      match firstBad (l.map fun o => o.2.2.1) with
      | some i => some (tshape 4 i)
      | none => (firstBad (l.map fun o => o.2.2.2)).map (tshape 5)
/-- fmtA and fmtB of a prefix (R122, R276). -/
def Ctx.fmtTypes (x : Ctx) : Option Nat × Option Nat :=
  match x.fmt with
  | some w => (some (bits w.toNat 22 4), some (bits w.toNat 18 4))
  | none => (none, none)

/-! ### Binding and moving tiles (R268, R269, R273) -/

/-- MACQ (R268). -/
def execMacq (d : BitVec 3) (s : State) : Host.Outcome State Fault Refusal :=
  run s fun e c => issue e c (.macq d) {} fun _ c xk x =>
    if x.tiles.contains d.toNat then .retire c
    else if x.rc ≤ x.tiles.length then .trap 0x0A (tshape 2 0)
    else .retire ((c.modCtx xk fun y => { y with tiles := d.toNat :: y.tiles }).zero (tileAt xk d.toNat) 16384)
/-- MREL (R269). -/
def execMrel (d : BitVec 3) (s : State) : Host.Outcome State Fault Refusal :=
  run s fun e c => issue e c (.mrel d) { wm := [d.toNat] } fun _ c xk _ =>
    .retire (c.modCtx xk fun y => { y with tiles := y.tiles.filter (· ≠ d.toNat) })
/-- MLD (R273). -/
def execMld (d : BitVec 3) (a : BitVec 5) (s : State) : Host.Outcome State Fault Refusal :=
  run s fun e c => issue e c (.mld d a) { x := [a.toNat], wm := [d.toNat], mem := true, ctr := .ld } fun e c xk x =>
    let sh := x.shape d.toNat none
    let ad := x.getX a.toNat
    match tileCheck x [(d.toNat, sh, false, false)] with
    | some t => .trap 0x0A t
    | none =>
      match c.check xk ad sh.area 128 with
      | some code => .trap code ad
      | none => loadFate e c xk x 128 .mld (.m d.toNat) .load true (linesOf ad sh.area)
/-- MST (R273, R274). -/
def execMst (d : BitVec 3) (a : BitVec 5) (s : State) : Host.Outcome State Fault Refusal :=
  run s fun e c => issue e c (.mst d a) { x := [a.toNat], rm := [d.toNat], mem := true, ctr := .st } fun e c xk x =>
    let sh := x.shape d.toNat none
    let ad := x.getX a.toNat
    match tileCheck x [(d.toNat, sh, false, false)] with
    | some t => .trap 0x0A t
    | none =>
      match c.check xk ad sh.area 128 with
      | some code => .trap code ad
      | none => storeFate e c xk x 128 .mst (.m d.toNat) ((linesOf ad sh.area).map fun p => (p.2.1, rdN e c (tileAt xk d.toNat + p.1) p.2.2))

/-! ### Tile operations (R275 to R277) -/

/-- The elements of a tile register in a shape, row by row. -/
def tileElems (e : Env) (c : Chip) (xk m : Nat) (s : Shape) : List Nat :=
  let w := tyW s.ty / 8
  (List.range (s.rows * s.cols)).map fun i => leNat (rdN e c (tileAt xk m + i * w) w)
/-- Elements as bytes. -/
def elemBytes (t : Nat) (l : List Nat) : List Byte := l.flatMap (leBytes (tyW t / 8))
/-- Queue a tile operation for the matrix unit, with the cycles that it takes there (R270, R271, R285). -/
def Chip.tileQueue (c : Chip) (xk : Nat) (m : MArgs) (area : Nat) : Fate :=
  .retire (c.next.addOp xk { id := c.serial, kind := .tile m ((area + 511) / 512 + 4), ctr := .mx })
/-- MZERO (R275): the shape is not checked. -/
def execMzero (d : BitVec 3) (s : State) : Host.Outcome State Fault Refusal :=
  run s fun e c => issue e c (.mzero d) { wm := [d.toNat], ctr := .mx } fun _ c xk x =>
    if x.tiles.contains d.toNat then c.tileQueue xk { op := .zero, d := d.toNat } 16384 else .trap 0x0A (tshape 1 0)
/-- The types of MADD and MSCL (R277). -/
def notArith (t : Nat) : Bool := decide (3 < t)
/-- The shapes differ in rows or columns. -/
def Shape.differs (s t : Shape) : Bool := s.rows != t.rows || s.cols != t.cols
/-- MADD (R275). -/
def execMadd (d a b : BitVec 3) (s : State) : Host.Outcome State Fault Refusal :=
  run s fun e c => issue e c (.madd d a b) { rm := [a.toNat, b.toNat], wm := [d.toNat], ctr := .mx } fun _ c xk x =>
    let (fa, fb) := x.fmtTypes
    let (rnd, sat) := x.rounding
    let sd := x.shape d.toNat none
    let sa := x.shape a.toNat fa
    let sb := x.shape b.toNat fb
    match tileCheck x [(d.toNat, sd, notArith sd.ty, sd.differs sa || sd.differs sb), (a.toNat, sa, notArith sa.ty, false), (b.toNat, sb, notArith sb.ty, false)] with
    | some t => .trap 0x0A t
    | none => c.tileQueue xk { op := .add, d := d.toNat, a := a.toNat, b := b.toNat, td := sd.ty, ta := sa.ty, tb := sb.ty,
                                 rows := sd.rows, cols := sd.cols, rnd := rnd, sat := sat } (max sd.area (max sa.area sb.area))
/-- MSCL (R275): the scale is taken at issue. -/
def execMscl (d a : BitVec 3) (v : BitVec 5) (s : State) : Host.Outcome State Fault Refusal :=
  run s fun e c => issue e c (.mscl d a v) { x := [v.toNat], rm := [a.toNat], wm := [d.toNat], ctr := .mx } fun _ c xk x =>
    let (fa, _) := x.fmtTypes
    let (rnd, sat) := x.rounding
    let sd := x.shape d.toNat none
    let sa := x.shape a.toNat fa
    match tileCheck x [(d.toNat, sd, notArith sd.ty, sd.differs sa), (a.toNat, sa, notArith sa.ty, false)] with
    | some t => .trap 0x0A t
    | none => c.tileQueue xk { op := .scl, d := d.toNat, a := a.toNat, td := sd.ty, ta := sa.ty, rows := sd.rows, cols := sd.cols,
                                 sc := BitVec.ofNat 32 (x.getX v.toNat).toNat, rnd := rnd, sat := sat } (max sd.area sa.area)
/-- MCVT (R275). -/
def execMcvt (d a : BitVec 3) (s : State) : Host.Outcome State Fault Refusal :=
  run s fun e c => issue e c (.mcvt d a) { rm := [a.toNat], wm := [d.toNat], ctr := .mx } fun _ c xk x =>
    let (fa, _) := x.fmtTypes
    let (rnd, sat) := x.rounding
    let sd := x.shape d.toNat none
    let sa := x.shape a.toNat fa
    match tileCheck x [(d.toNat, sd, false, sd.differs sa), (a.toNat, sa, false, false)] with
    | some t => .trap 0x0A t
    | none => c.tileQueue xk { op := .cvt, d := d.toNat, a := a.toNat, td := sd.ty, ta := sa.ty, rows := sd.rows, cols := sd.cols,
                                 rnd := rnd, sat := sat } (max sd.area sa.area)
/-- MTRN (R275). -/
def execMtrn (d a : BitVec 3) (s : State) : Host.Outcome State Fault Refusal :=
  run s fun e c => issue e c (.mtrn d a) { rm := [a.toNat], wm := [d.toNat], ctr := .mx } fun _ c xk x =>
    let sd := x.shape d.toNat none
    let sa := x.shape a.toNat none
    match tileCheck x [(d.toNat, sd, tyW sd.ty != tyW sa.ty, sd.rows != sa.cols || sd.cols != sa.rows), (a.toNat, sa, false, false)] with
    | some t => .trap 0x0A t
    | none => c.tileQueue xk { op := .trn, d := d.toNat, a := a.toNat, td := sd.ty, ta := sa.ty, rows := sd.rows, cols := sd.cols } (max sd.area sa.area)
/-- The elements and flags that a tile operation writes into md (R275). -/
def tileResult (e : Env) (c : Chip) (xk : Nat) (m : MArgs) : List (Nat × BitVec 6) :=
  let sa : Shape := ⟨m.rows, m.cols, m.ta⟩
  match m.op with
  | .zero => []
  | .add => ((tileElems e c xk m.a sa).zip (tileElems e c xk m.b ⟨m.rows, m.cols, m.tb⟩)).map fun p =>
      packOp m.td (FVal.add m.rnd (unpack m.ta p.1) (unpack m.tb p.2)) m.rnd m.sat
  | .scl => (tileElems e c xk m.a sa).map fun u => packOp m.td (FVal.mul (unpack m.ta u) (unpack 0 m.sc.toNat)) m.rnd m.sat
  | .cvt => (tileElems e c xk m.a sa).map fun u => convert m.td m.ta u m.rnd m.sat
  | .trn =>
    let l := tileElems e c xk m.a ⟨m.cols, m.rows, m.ta⟩
    (List.range (m.rows * m.cols)).map fun i => (l.getD (i % m.cols * m.rows + i / m.cols) 0, 0)
/-- TILE_OP_COMPLETE (R227, R275): the matrix unit has written md, and mx falls. -/
def execTileOpComplete (xk op : Nat) (s : State) : Host.Outcome State Fault Refusal :=
  run s fun e c => match (c.ctx xk).ops.find? (·.id == op) with
    | some o =>
      (match o.kind with
       | .tile m _ =>
         let r := tileResult e c xk m
         let c := if m.op = .zero then c.zero (tileAt xk m.d) 16384 else c.put (tileAt xk m.d) (elemBytes m.td (r.map (·.1)))
         (c.modCtx xk fun x => { x.flagDone (r.foldl (fun a p => a ||| p.2) 0) with ops := x.ops.filter (·.id ≠ op) }).modCore (coreOf xk) fun k => { k with mxNow := none }
       | _ => c)
    | none => c

/-! ### Block and group sums (R228 to R232) -/

/-- A sum of products: special, or D in units of 2^w, with the flags of its truncations. -/
structure PSum where
  special : Option FVal
  d : Int
  w : Int
  fl : BitVec 6
  deriving DecidableEq, Repr

/-- Exact products summed, each truncated towards zero to a multiple of 2^(e - cut), e the largest exponent; with no cut the sum
is exact in units of 2^-18 (R228, R229, R231, R232). A special sum raises NV or nothing: no rule says what e its finite products would be
cut at, so none is cut and none raises NX (DESIGN CHOICE, log 109). -/
def sumProducts (ps : List (FVal × FVal)) (cut : Option Int) : PSum :=
  let prods := ps.map fun p => (FVal.mul p.1 p.2).1
  let pos := prods.contains (.inf false)
  let neg := prods.contains (.inf true)
  if prods.any (·.isNaN) || (pos && neg) then ⟨some (.nan false), 0, 0, fNV⟩
  else if pos then ⟨some (.inf false), 0, 0, 0⟩
  else if neg then ⟨some (.inf true), 0, 0, 0⟩
  else
    let nz := prods.filterMap fun p => match p with | .num s m e => if m = 0 then none else some (s, m, e) | _ => none
    match nz with
    | [] => ⟨none, 0, 0, 0⟩
    | f :: r =>
      let top := r.foldl (fun a p => Max.max a ((Nat.log2 p.2.1 : Int) + p.2.2)) ((Nat.log2 f.2.1 : Int) + f.2.2)
      let q : Int := match cut with | some k => top - k | none => -18
      nz.foldl (fun (a : PSum) p =>
        let (s, m, e) := p
        if q ≤ e then { a with d := a.d + sgnInt s (m * 2 ^ (e - q).toNat) }
        else { a with d := a.d + sgnInt s (m / 2 ^ (q - e).toNat), fl := a.fl ||| fIf (m % 2 ^ (q - e).toNat ≠ 0) fNX }) ⟨none, 0, q, 0⟩
/-- A sum with its scales added into an FP32 element; a zero D leaves it unchanged (R230 to R232). -/
def addSum (cv : Nat) (s : PSum) (sa sb : FVal) (rnd : Nat) (sat : Bool) : Nat × BitVec 6 :=
  if s.special.isNone ∧ s.d = 0 then (cv, s.fl)
  else
    let v := s.special.getD (.num (decide (s.d < 0)) s.d.natAbs s.w)
    let (v, f) := FVal.mul v sa
    let (v, g) := FVal.mul v sb
    let (v, h) := FVal.add rnd (unpack 0 cv) v
    let (r, k) := pack 0 v rnd sat
    (r, s.fl ||| f ||| g ||| h ||| k)
/-- One output element over one K chunk: blocks of 128 for FP8, groups of 16 otherwise (R228 to R232, R278). -/
def chunkSum (cv : Nat) (ta tb : Nat) (ps : List (FVal × FVal)) (sa sb : FVal) (rnd : Nat) (sat : Bool) : Nat × BitVec 6 :=
  if 4 ≤ ta then addSum cv (sumProducts ps (if ta = 4 ∧ tb = 4 then none else some 47)) sa sb rnd sat
  else (List.range ((ps.length + 15) / 16)).foldl (fun (a : Nat × BitVec 6) g =>
    let (r, f) := addSum a.1 (sumProducts ((ps.drop (16 * g)).take 16) (some 50)) (.num false 1 0) (.num false 1 0) rnd sat
    (r, a.2 ||| f)) (cv, 0)

/-! ### Macro-ops (R277 to R283) -/

/-- K chunks of a macro-op (R279). -/
def MArgs.kc (m : MArgs) : Nat := (m.kk + 127) / 128
/-- Segments of a macro-op (R279). -/
def MArgs.ns (m : MArgs) : Nat := m.rows / 16 * (m.cols / 16) * m.kc
/-- Engine steps of a segment (R279). -/
def MArgs.steps (m : MArgs) (seg : Nat) : Nat :=
  let ch := seg % m.kc
  (Nat.min m.kk (128 * ch + 128) - 128 * ch) / (if 4 ≤ m.ta then 8 else 4)
/-- The operands of MMA, and of MMAS with its scales, for the checks of R272, with the types and relations of R277 and R278. Of an FP8 ma
with a BF16 or FP16 mb, or the reverse, it is mb that BADTYPE names (DESIGN CHOICE, log 111). -/
def macroOperands (x : Ctx) (d a b : Nat) (ms : Option Nat) : List (Nat × Shape × Bool × Bool) :=
  let (fa, fb) := x.fmtTypes
  let sd := x.shape d none
  let sa := x.shape a fa
  let sb := x.shape b fb
  let fp8 (t : Nat) : Bool := t == 4 || t == 5
  let half (t : Nat) : Bool := t == 2 || t == 3
  let kmul := if fp8 sa.ty then 128 else 16
  let ss : Option Shape := ms.map fun n => x.shape n none
  let bad0 : Bool := sd.rows % 16 != 0 || sd.cols % 16 != 0 || sa.rows != sd.rows || sb.cols != sd.cols ||
    (match ss with | some t => decide (128 < sd.cols) || t.rows != sd.rows + 1 | none => false)
  let bad1 : Bool := sa.cols != sb.rows || sa.cols % kmul != 0 || (match ss with | some t => t.cols != sa.cols / 128 | none => false)
  let tyA := if ms.isSome then !fp8 sa.ty else !(fp8 sa.ty || half sa.ty)
  let tyB := if ms.isSome then !fp8 sb.ty else !((fp8 sb.ty && fp8 sa.ty) || (half sb.ty && half sa.ty))
  [(d, sd, sd.ty != 0, bad0), (a, sa, tyA, bad1), (b, sb, tyB, false)] ++
    (match ms, ss with | some n, some t => [(n, t, t.ty != 0, false)] | _, _ => [])
/-- MMA and MMAS at issue (R272, R276 to R283). -/
def macroOp (c : Chip) (xk : Nat) (x : Ctx) (d a b : Nat) (ms : Option Nat) : Fate :=
  let (fa, fb) := x.fmtTypes
  let (rnd, sat) := x.rounding
  let sd := x.shape d none
  let sa := x.shape a fa
  let sb := x.shape b fb
  match tileCheck x (macroOperands x d a b ms) with
  | some t => .trap 0x0A t
  | none =>
    if d = a then .trap 0x0A (tshape 6 1)
    else if d = b then .trap 0x0A (tshape 6 2)
    else if ms = some d then .trap 0x0A (tshape 6 3)
    else
      let m : MArgs := { d := d, a := a, b := b, s := ms.getD 0, td := 0, ta := sa.ty, tb := sb.ty, rows := sd.rows, cols := sd.cols,
                         kk := sa.cols, rnd := rnd, sat := sat }
      let s0 := if x.seqValid then x.seqSeg else 0
      if m.ns ≤ s0 then .trap 0x0A (tshape 7 0)
      else if (x.nextPc x.pc).2.toNat % 4 ≠ 0 then .trap 0x03 (x.nextPc x.pc).2
      else .stay ((c.next.addOp xk { id := c.serial, kind := .mma, ctr := .mx }).modCtx xk fun y =>
        { y with st := .ready, wait := .free, mop := some { args := m, seg := s0, ns := m.ns, left := m.steps s0, scale := ms.isSome, fmt := x.fmt } })
/-- MMA (R278). -/
def execMma (d a b : BitVec 3) (s : State) : Host.Outcome State Fault Refusal :=
  run s fun e c => issue e c (.mma d a b) { rm := [a.toNat, b.toNat], wm := [d.toNat], ctr := .mx } fun _ c xk x =>
    macroOp c xk x d.toNat a.toNat b.toNat none
/-- MMAS (R278). -/
def execMmas (d a b m : BitVec 3) (s : State) : Host.Outcome State Fault Refusal :=
  run s fun e c => issue e c (.mmas d a b m) { rm := [a.toNat, b.toNat, m.toNat], wm := [d.toNat], ctr := .mx } fun _ c xk x =>
    macroOp c xk x d.toNat a.toNat b.toNat (some m.toNat)
/-- The sums of a segment added into md: the package after it and the flags (R278, R279). -/
def runSegment (e : Env) (c : Chip) (xk : Nat) (o : MOp) : Chip × BitVec 6 :=
  let m := o.args
  let ch := o.seg % m.kc
  let blk := o.seg / m.kc
  let r0 := 16 * (blk / (m.cols / 16))
  let c0 := 16 * (blk % (m.cols / 16))
  let k0 := 128 * ch
  let kn := Nat.min m.kk (k0 + 128) - k0
  let el (reg t col i j : Nat) : Nat := leNat (rdN e c (tileAt xk reg + (i * col + j) * (tyW t / 8)) (tyW t / 8))
  let colsB := (List.range 16).map fun j => (List.range kn).map fun k => unpack m.tb (el m.b m.tb m.cols (k0 + k) (c0 + j))
  let scale (i : Nat) : FVal := if o.scale then unpack 0 (el m.s 0 m.kc i ch) else .num false 1 0
  (List.range 16).foldl (fun (acc : Chip × BitVec 6) i =>
    let ra := (List.range kn).map fun k => unpack m.ta (el m.a m.ta m.kk (r0 + i) (k0 + k))
    let res := (List.range 16).map fun j =>
      chunkSum (el m.d 0 m.cols (r0 + i) (c0 + j)) m.ta m.tb (ra.zip (colsB.getD j [])) (scale (r0 + i)) (scale m.rows) m.rnd m.sat
    (acc.1.put (tileAt xk m.d + ((r0 + i) * m.cols + c0) * 4) (elemBytes 0 (res.map (·.1))), res.foldl (fun a p => a ||| p.2) acc.2)) (c, 0)
/-- The macro-op of a context leaves the unit: its mx count falls, and its flags go into FPFLAGS (R227, R281). -/
def Ctx.dropMop (x : Ctx) (fl : BitVec 6) : Ctx := { x.flagDone fl with mop := none, ops := x.ops.filter fun o => o.kind != .mma }
/-- A retired macro-op whose last segment is due to be added (R280). -/
def Ctx.mmaDue (x : Ctx) (now : Nat) : Option (Nat × MOp) :=
  x.ops.findSome? fun o => match o.kind with | .mmaEnd m due => if due ≤ now then some (o.id, m) else none | _ => none
/-- The macro-op stands at the start of a segment of which no step has been granted (R271). -/
def MOp.fresh (o : MOp) : Bool := o.left == o.args.steps o.seg
/-- A segment before the last is over: its sums are added, and the macro-op goes on with the next one (R279). -/
def Chip.nextSegment (e : Env) (c : Chip) (xk : Nat) (o : MOp) : Chip :=
  let (c, fl) := runSegment e c xk o
  c.modCtx xk fun x => { x with mop := some { o with seg := o.seg + 1, left := o.args.steps (o.seg + 1), fl := o.fl ||| fl } }
/-- The context, with a macro-op at a segment boundary, is stopped there, or loses the macro-op where it is to end (R281). -/
def Ctx.leaveMop (x : Ctx) (now : Nat) (o : MOp) : Ctx :=
  if x.stopReq then ({ x.dropMop o.fl with seqValid := true, seqSeg := o.seg } : Ctx).stop now else x.dropMop o.fl
/-- SEGMENT_COMPLETE (R279 to R282): the sums of a segment are added, and the macro-op goes on, or is stopped where a stop or its
context's end is pending, also where it waits at a boundary for the unit. After the last step the instruction retires; its last segment
is added, and mx falls, 4 cycles later. -/
def execSegmentComplete (xk : Nat) (s : State) : Host.Outcome State Fault Refusal :=
  run s fun e c => match (c.ctx xk).mmaDue e.now with
    | some (id, o) =>
      let (c, fl) := runSegment e c xk o
      c.modCtx xk fun x => { x.flagDone (o.fl ||| fl) with ops := x.ops.filter (·.id ≠ id) }
    | none =>
      match (c.ctx xk).mop with
      | none => c
      | some o =>
        let leaves : Bool := (c.ctx xk).stopReq || (c.endReason xk).isSome
        let leave (c : Chip) : Chip := if leaves then c.modCtx xk fun x => match x.mop with | some o => x.leaveMop e.now o | none => x else c
        if o.left ≠ 0 then (if o.fresh then leave c else c)
        else if o.seg + 1 < o.ns then leave (c.nextSegment e xk o)
        else
          let due := e.now + c.coreTicks (coreOf xk) 4
          c.modCtx xk fun x =>
            let y := { x with mop := none, ops := x.ops.map fun (p : Op) => if p.kind == OpKind.mma then { p with kind := .mmaEnd o due } else p }
            let (y, t) := y.nextPc x.pc
            (y.retired t).stopIfAsked e.now

/-! ### The unit's service (R271) -/

/-- The next work of a context for the matrix unit, in program order: the cycles of a tile operation, or 0 for a macro-op's steps.
A macro-op has none left once its last step is done. -/
def Ctx.mxWork (x : Ctx) : Option Nat :=
  (x.ops.find? fun o => match o.kind with | .tile .. | .mma => true | _ => false).bind fun o => match o.kind with
    | .tile _ n => some n
    | _ => if x.mop.any (·.left ≠ 0) then some 0 else none
/-- The context that the unit of a core serves next: by turns, in ascending context number after the one served last (R271). -/
def Chip.mxNext (c : Chip) (ck : Nat) : Option Nat :=
  ((List.range 8).map fun i => ((c.core ck).lastMx + 1 + i) % 8).find? fun n => (c.ctx (ck * 8 + n)).mxWork.isSome
/-- A free matrix unit takes the next context's work (R271). -/
def Chip.mxServe (now : Nat) (c : Chip) (ck : Nat) : Chip :=
  let busy : Bool := match (c.core ck).mxNow with
    | some (n, due) => (match (c.ctx (ck * 8 + n)).mxWork with | some w => (w == 0) == (due == 0) | none => false)
    | none => false
  if busy then c
  else match c.mxNext ck with
    | some n => c.modCore ck fun k => { k with lastMx := n, mxNow := some (n, match (c.ctx (ck * 8 + n)).mxWork with | some 0 | none => 0 | some w => now + c.coreTicks ck w) }
    | none => if (c.core ck).mxNow.isSome then c.modCore ck fun k => { k with mxNow := none } else c

/-! ### MGEO (R24, R284) -/

/-- The geometry of a unit: row0, col0, rows, cols (R24). -/
def geometry (g tc : W64) : Nat × Nat × Nat × Nat :=
  let n := g.toNat
  let th := bits n 0 12
  let tw := bits n 12 12
  let eh := bits n 24 20
  let ew := bits n 44 20
  let row0 := bits tc.toNat 16 16 * th
  let col0 := bits tc.toNat 0 16 * tw
  (row0, col0, if eh = 0 then th else Nat.min th (eh - row0), if ew = 0 then tw else Nat.min tw (ew - col0))
/-- MGEO (R284). -/
def execMgeo (d : BitVec 5) (l : BitVec 3) (s : State) : Host.Outcome State Fault Refusal :=
  scalar (.mgeo d l) [] d.toNat (fun x =>
    let (r0, c0, r, cn) := geometry x.geom x.tilecoord
    match l.toNat with
    | 0 => w64 r0
    | 1 => w64 c0
    | 2 => w64 r
    | 3 => w64 cn
    | 4 => w64 (2 ^ Nat.min r 64 - 1)
    | _ => w64 (2 ^ Nat.min cn 64 - 1)) s

end Sys2Proof.Machine
end

