-- ==== Sys2Proof/Machine/Lock.lean ====
section
/-! DEFINITION. Queued line locks: the home's state machine, handover, ghosts, broken locks, deadlock probes, and the
four lock instructions (R323 to R340). -/
namespace Sys2Proof.Machine
open Sys2Proof

/-! ### The exactly-once limit of class AMO (R306) -/

/-- The home and place a request will be performed at, as translation would choose it now. -/
def Chip.placeOf (e : Env) (c : Chip) (q : Req) : Option LKey :=
  if space q.va = 1 then (c.spParse q.va 1).map fun p => ⟨coreNode p.1, sram p.1 p.2⟩
  else match xlate e c q.vi q.va (permNeed q.act) none (if q.host then none else some (coreOf q.src)) true with
    | .ok _ h pa _ _ _ => some ⟨h, pa⟩
    | _ => none
/-- The home of a place as R306 counts requests and keeps reply records: of the places that the bridge reaches, host memory is one
home (R286), and those of a peer device are told apart by the device and by the slice that a hash over its 4,096 slices gives (log 107). -/
def amoHome (home pa : Nat) : Nat :=
  if home = bridgeNode then 2 ^ 24 + (if extHost pa then 0 else (1 + (pa - 2 ^ 50) / 2 ^ 42 % 16) * 4096 + pa / 128 % 4096) else home
/-- The home alone, as R306 counts its requests; 0 where none is known. -/
def Chip.homeOf (e : Env) (c : Chip) (q : Req) : Nat := (c.placeOf e q).elim 0 fun k => amoHome k.home k.addr
/-- Eight requests of the core to this home are unanswered (R306). -/
def Chip.amoFull (c : Chip) (ck home : Nat) : Bool := 8 ≤ ((c.core ck).amoOut.filter (·.1 == home)).length
/-- A request takes the core's next sequence number for the home, counts as unanswered, and is sent again when no reply arrives
within 65,536 core cycles (R306). -/
def Chip.amoNote (e : Env) (c : Chip) (home : Nat) (q : Req) : Chip × Req :=
  let ck := coreOf q.src
  let n := (c.core ck).amoSeq.get 0 home
  let q := { q with seq := n }
  ((c.modCore ck fun k => { k with amoSeq := k.amoSeq.put home ((n + 1) % 65536), amoOut := k.amoOut ++ [(home, q)] }).timer
    (e.now + c.reqTicks q 65536) (.atomicResend q), q)
/-- A request of class AMO leaves (R306). -/
def Chip.amoSend (e : Env) (c : Chip) (home : Nat) (q : Req) : Chip := (c.amoNote e home q).1.request (c.amoNote e home q).2
/-- The record of a request of a core that the home has performed (R306). -/
def Home.recOf (h : Home) (q : Req) : Option Rec := h.recs.find? fun r => r.src == coreOf q.src && r.part == q.part
/-- A record of a performed request at its home; the last 8 of a source are kept (R306). -/
def Home.addRec (h : Home) (r : Rec) : Home :=
  let same (x : Rec) : Bool := x.src == r.src && x.key == r.key
  { h with recs := r :: ((h.recs.filter same).take 7 ++ h.recs.filter fun x => !same x) }

/-! ### Refused accesses issued again (R149, R150, R171, R306, R396) -/

/-- The refused accesses of a context are to be issued again, in program order: what is refused of an operation is one operation. -/
def Ctx.toReplay (x : Ctx) : Ctx :=
  let msg (o : Op) : Bool := match o.kind with | .msg _ => true | _ => false
  let back (o : Op) : List Op := if o.refused.isEmpty then [] else [{ o with parts := [] }]
  { x with replay := (x.replay.filter (fun o => !msg o) ++ x.ops.flatMap back).insertionSort (fun a b => a.id ≤ b.id),
           ops := x.ops.map fun o => { o with refused := [] }, replaying := true }
/-- One refused operation is issued again: nothing where its counter is full, or for class AMO its home has eight unanswered
requests of the core. -/
def Chip.reissue (e : Env) (c : Chip) (xk : Nat) (o : Op) : Option Chip :=
  let x := c.ctx xk
  let ps := (o.refused.map (·.p)).insertionSort (fun a b => a.id ≤ b.id)
  let fresh (q : Req) : Req := { q with home := 0, pa := 0, refill := false, stale := false }
  let amo : Option Req := (ps.head?.map fun p => fresh p.q).filter fun q => actCls q.act == .amo
  if o.ctr ≠ .none ∧ 63 ≤ x.cnt o.ctr then none
  else
    let c' := c.modCtx xk fun y => { y with ops := y.ops ++ [{ o with parts := ps, refused := [] }] }
    match amo with
    | some q => if c.amoFull (coreOf xk) (c.homeOf e q) then none else some (c'.amoSend e (c.homeOf e q) q)
    | none => some (ps.foldl (fun c p => c.request (fresh p.q)) c')
/-- The refused operations that can be issued now, the first of the context first. -/
def Chip.replayNext (e : Env) (c : Chip) (xk : Nat) : Nat → Chip
  | 0 => c
  | n + 1 =>
    match (c.ctx xk).replay with
    | [] => c.modCtx xk fun x => { x with replaying := false }
    | o :: _ => match c.reissue e xk o with
      | some c => Chip.replayNext e (c.modCtx xk fun x => { x with replay := x.replay.tail }) xk n
      | none => c
/-- The refused accesses of a context are issued again, as soon as its counters and the limit of R306 have room. -/
def Chip.replayAll (e : Env) (c : Chip) (xk : Nat) : Chip :=
  let c := c.modCtx xk Ctx.toReplay
  c.replayNext e xk ((c.ctx xk).replay.length + 1)

/-! ### The lock home (R327) -/

/-- Hold timeout in ticks (R335). -/
def holdTicks (h : Nat) : Nat := 2 ^ (max 10 (min 30 h))
/-- The home's entry for a line. -/
def Chip.lockEnt (c : Chip) (k : LKey) : Option LockE := (c.home k.home).locks.find? (·.addr == k.addr)
/-- The home's entry replaced, or deleted. -/
def Chip.setLock (c : Chip) (k : LKey) (l : Option LockE) : Chip :=
  c.modHome k.home fun h => { h with locks := (match l with | some l => [l] | none => []) ++ h.locks.filter (·.addr ≠ k.addr) }
/-- The bytes a grant carries: the line's data for a global line (R326, R328). -/
def Chip.lockData (e : Env) (c : Chip) (k : LKey) (vi : Nat) : List Byte := if nodeIsCore k.home then [] else c.homeRead e vi k.addr 128
/-- The deadline of a holder starts (R327). -/
def Chip.armHold (e : Env) (c : Chip) (k : LKey) (l : LockE) (w : Waiter) : Chip :=
  let s := c.serial
  (c.next.setLock k (some { l with deadline := e.now + holdTicks w.hold, stamp := s })).timer (e.now + holdTicks w.hold) (.holdDeadline k s)
/-- The waiter that a lock request stands for. -/
def reqWaiter (q : Req) : Waiter := ⟨q.src, q.part, (match q.act with | .lock _ h _ _ _ => h | _ => 0), q.vi, lineOf q.va⟩
/-- The reply to a lock request (R306, R324, R327). -/
def Chip.lockReply (c : Chip) (q : Req) (r : LockRep) : Chip :=
  match r with
  | .none => c
  | .enqueued => c.send q.home (reqFrom q) .rsp (.enqueued q)
  | .grant st d => c.send q.home (reqFrom q) .rsp (.grant (reqWaiter q) ⟨q.home, q.pa / 128 * 128⟩ st d)
/-- A lock request has been performed: its reply is recorded and sent (R306). -/
def Chip.lockDone (c : Chip) (q : Req) (r : LockRep) : Chip :=
  (c.modHome q.home fun h => h.addRec { src := coreOf q.src, part := q.part, seq := q.seq, old := 0, flags := 0, vt := 0, lock := r, key := amoHome q.home q.pa }).lockReply q r
/-- A lock request performed at its home (R327, R339). `probe` asks for the probe of R332. -/
def lockAt (e : Env) (c : Chip) (q : Req) (probe : Bool) : Chip :=
  match q.act with
  | .lock try_ _ dlen holds _ =>
    let k : LKey := ⟨q.home, q.pa / 128 * 128⟩
    let w : Waiter := reqWaiter q
    let grant (c : Chip) (st : Nat) : Chip := c.lockDone q (.grant st (c.lockData e k q.vi))
    match (if nodeIsCore q.home then c.remoteOk { q with pa := k.addr } 128 else none) with
    | some code => c.refuse q.home q code 0
    | none =>
      match c.lockEnt k with
      | none =>
        if 256 ≤ (c.home q.home).locks.length then c.send q.home (reqFrom q) .rsp (.lockTableRetry q) (e.now + c.reqTicks q retryTicks)
        else grant (c.armHold e k { addr := k.addr, st := .held, holder := some w, tail := some w } w) 0
      | some l =>
        match l.st with
        | .orphan => grant (c.armHold e k { l with st := .held, holder := some w, tail := some w, nwait := 0 } w) 1
        | .breaking => c.setLock k (some { l with parked := l.parked ++ [(q, probe)] })
        | _ =>
          if try_ then c.lockDone q (.grant 2 [])
          else if probe && dlen && holds then
            match l.holder with
            | some h => (c.modHome q.home fun m => { m with probes := m.probes ++ [⟨q, 1, h⟩] }).send q.home (coreNode (coreOf h.xk)) .amo (.probe q 1 h h)
            | none => c
          else
            let c := match l.tail with
              | some t => c.send q.home (coreNode (coreOf t.xk)) .amo (.lkLink t k w)
              | none => c
            (c.setLock k (some { l with st := .queued, tail := some w, nwait := min 65535 (l.nwait + 1) })).lockDone q .enqueued
  | _ => c
/-- A lock request arrives (R306, R327): one that is on record gets its reply again, and one that the home holds is held still. -/
def lockArrives (e : Env) (c : Chip) (q : Req) : Chip :=
  let h := c.home q.home
  match h.recOf q with
  | some r => c.lockReply q r.lock
  | none =>
    if (h.probes.any fun p => p.q.part == q.part) || (h.locks.any fun l => l.parked.any fun p => p.1.part == q.part) then c else lockAt e c q true
/-- The requests that a break held back are performed in arrival order, without a second probe (R327). -/
def Chip.unpark (e : Env) (c : Chip) (_k : LKey) (qs : List (Req × Bool)) : Chip := qs.foldl (fun c p => lockAt e c p.1 p.2) c
/-- HANDOFF, or BREAKACK with a next waiter (R327). -/
def handoffAt (e : Env) (c : Chip) (k : LKey) (frm new : Waiter) : Chip :=
  match c.lockEnt k with
  | none => c
  | some l =>
    if l.holder = some frm then
      let l' := { l with holder := some new, nwait := l.nwait - 1, parked := [],
                         st := if l.tail = some new then LSt.held else LSt.queued }
      (c.armHold e k l' new).unpark e k l.parked
    else c
/-- The ghost of a pass that the home has ended (R328). -/
def Chip.dropGhost (c : Chip) (w : Waiter) : Chip := c.modCore (coreOf w.xk) fun k => { k with ghosts := k.ghosts.filter fun g => g.w ≠ w }
/-- RELEASE (R327). -/
def releaseAt (e : Env) (c : Chip) (k : LKey) (frm : Waiter) (status : Nat) : Chip :=
  match c.lockEnt k with
  | none => c
  | some l =>
    if l.holder = some frm then
      if l.tail = some frm then
        let c := (c.setLock k (if status = 0 then none else some { l with st := .orphan, holder := none, tail := none, parked := [], stamp := 0 })).dropGhost frm
        c.unpark e k l.parked
      else ((c.setLock k (some { l with st := .queued, parked := [] })).send k.home (coreNode (coreOf frm.xk)) .rsp (.waitlink frm k)).unpark e k l.parked
    else c
/-- A hold deadline (R327). -/
def holdExpired (e : Env) (c : Chip) (k : LKey) (stamp : Nat) : Chip :=
  match c.lockEnt k with
  | none => c
  | some l =>
    match l.st, l.holder with
    | .held, some h | .queued, some h =>
      if l.stamp = stamp ∧ l.deadline ≤ e.now then
        (c.setLock k (some { l with st := .breaking })).send k.home (coreNode (coreOf h.xk)) .amo (.lkBreak h k)
      else c
    | _, _ => c
/-- BREAKACK (R327). -/
def breakAcked (e : Env) (c : Chip) (k : LKey) (frm : Waiter) (next : Option Waiter) (released : Bool) : Chip :=
  if released then c else
  match c.lockEnt k with
  | none => c
  | some l =>
    if l.st = .breaking ∧ l.holder = some frm then
      match next with
      | some n => (handoffAt e c k frm n).dropGhost frm
      | none =>
        if l.tail = some frm then
          (((c.setLock k (some { l with st := .orphan, holder := none, tail := none, parked := [], stamp := 0 })).dropGhost frm)).unpark e k l.parked
        else c.send k.home (coreNode (coreOf frm.xk)) .rsp (.waitlink frm k)
    else c
/-- LKQ at the home (R340): a request of class AMO, whose reply is recorded, and sent again where it comes again (R306). -/
def lkqAt (c : Chip) (q : Req) : Chip :=
  let k : LKey := ⟨q.home, q.pa / 128 * 128⟩
  let reply (c : Chip) (v : Nat) : Chip := c.send q.home (reqFrom q) .rsp (.loadReply q (leBytes 8 v) [] 0)
  match (c.home q.home).recOf q with
  | some r => reply c r.old.toNat
  | none =>
  match (if nodeIsCore q.home then c.remoteOk { q with pa := k.addr } 128 else none) with
  | some code => c.refuse q.home q code 0
  | none =>
    let v := match c.lockEnt k with
      | none => 0
      | some l => (match l.holder with | some h => ctxId c.group h.xk * 2 ^ 32 | none => 0) + l.nwait * 2 ^ 16 +
          bn (l.st == .orphan) * 8 + bn (l.st == .breaking) * 4 + bn (l.holder.any fun h => h.xk == q.src) * 2 + bn (l.st != .orphan)
    reply (c.modHome q.home fun h => h.addRec { src := coreOf q.src, part := q.part, seq := q.seq, old := w64 v, flags := 0, vt := 0, key := amoHome q.home q.pa }) v

/-! ### At a core: passing a lock (R328 to R330) -/

/-- Ghost entries in use; a breaking core's own record is not one of the pool (R325, R330). -/
def Core.ghostsUsed (k : Core) : Nat := (k.ghosts.filter fun g => !g.extra).length
/-- Pass a lock: grant it to NEXT and tell the home, or ask the home for NEXT and wait as a ghost (R328). -/
def Chip.pass (c : Chip) (w : Waiter) (k : LKey) (next : Option Waiter) (status : Nat) (data : List Byte) (breaking extra : Bool) : Chip :=
  let me := coreNode (coreOf w.xk)
  match next with
  | some n =>
    let c := (c.dropGhost w).send me (coreNode (coreOf n.xk)) .rsp (.grant n k status data)
    if breaking then c.send me k.home .amo (.breakAck k w (some n) false) else c.send me k.home .amo (.handoff k w n)
  | none =>
    let c := c.modCore (coreOf w.xk) fun m => { m with ghosts := m.ghosts.filter (fun g => g.w ≠ w) ++
      [{ w := w, key := k, asked := true, status := status, data := data, breaking := breaking, extra := extra }] }
    if breaking then c.send me k.home .amo (.breakAck k w none false) else c.send me k.home .amo (.lkRelease k w status)
/-- A ghost that has both the WAITLINK and its NEXT passes on (R328). -/
def Chip.ghostGo (c : Chip) (ck : Nat) (w : Waiter) : Chip :=
  match (c.core ck).ghosts.find? (·.w == w) with
  | some g => if g.told && g.next.isSome then c.pass g.w g.key g.next g.status g.data g.breaking g.extra else c
  | none => c
/-- The content of a context's locked line, which leaves the L1 (R326). -/
def Chip.dropLocked (c : Chip) (xk : Nat) (line : W64) : Chip × List Byte :=
  let ck := coreOf xk
  let mine (l : L1Line) : Bool := l.kind == .locked xk && l.va == line
  (c.modCore ck fun k => { k with l1 := k.l1.filter fun l => !mine l }, ((c.core ck).l1.find? mine).elim [] (·.data))
/-- The context of a core that holds an entry: a restore may have moved it (R400). -/
def Chip.holderOf (c : Chip) (w : Waiter) : Nat :=
  ((List.range 8).find? fun n => (c.ctx (coreOf w.xk * 8 + n)).held.any (·.eid == w.eid)).elim w.xk (coreOf w.xk * 8 + ·)
/-- A held lock leaves its context and is passed (R328, R334, R338). -/
def Chip.giveUp (c : Chip) (xk : Nat) (h : Held) (status : Nat) : Chip :=
  if h.lost then c.modCtx xk fun x => { x with held := x.held.filter (·.eid ≠ h.eid) }
  else
    let (c, data) := c.dropLocked xk h.line
    let x := c.ctx xk
    (c.modCtx xk fun x => { x with held := x.held.filter (·.eid ≠ h.eid) }).pass ⟨h.owner.getD xk, h.eid, h.hold, x.vi, h.line⟩ h.key h.next status data false false
/-- A waiting entry becomes a ghost; one that holds a grant passes it at once, and one whose new request has not left is dropped, since
no grant can come for it (R329). -/
def Chip.ghostWaiting (c : Chip) (xk : Nat) : Chip :=
  let x := c.ctx xk
  match x.waiting with
  | none => c
  | some we =>
    let w : Waiter := ⟨xk, we.eid, we.hold, x.vi, we.line⟩
    let key := we.key.getD ⟨0, 0⟩
    let c := c.modCtx xk fun x => { x with waiting := none }
    match we.granted with
    | some st => c.pass w key we.next st we.gdata false false
    | none => if we.unsent then c else c.modCore (coreOf xk) fun k => { k with ghosts := k.ghosts ++ [{ w := w, key := key, next := we.next }] }
/-- The waiter that a LINK has named for an entry before its grant arrived (R328). -/
def Chip.linkOf (c : Chip) (w : Waiter) : Option Waiter := ((c.core (coreOf w.xk)).links.find? (·.1 == w)).map (·.2)
/-- That LINK has been taken over. -/
def Chip.dropLink (c : Chip) (w : Waiter) : Chip := c.modCore (coreOf w.xk) fun k => { k with links := k.links.filter (·.1 != w) }
/-- The lock is the context's: held entry, locked line, acquire at the lock scope (R326, R329). R294 ends an acquire after the
context's earlier loads and atomics, and R337 makes LOCK wait for no earlier access: the acquire is made at the grant (DESIGN CHOICE,
log 103). -/
def Chip.takeLock (c : Chip) (w : Waiter) (k : LKey) (next : Option Waiter) (data : List Byte) : Chip :=
  let ck := coreOf w.xk
  let next := next.orElse fun _ => c.linkOf w
  let c := c.dropLink w
  let c := c.modCtx w.xk fun x => { x with held := x.held ++ [{ line := w.line, key := k, eid := w.eid, hold := w.hold, next := next }] }
  let c := if data.isEmpty then c else c.installLocked ck ⟨w.vi, w.line, k.home, k.addr, .locked w.xk, data, 3⟩
  c.acquire ck 7
/-- The deadline of a LOCK (R329, R337). -/
def lockTimeout (e : Env) (c : Chip) (xk eid : Nat) : Chip :=
  let x := c.ctx xk
  match x.waiting with
  | some we =>
    if we.eid = eid ∧ we.granted.isNone ∧ we.deadline.any (· ≤ e.now) then
      if 16 ≤ (c.core (coreOf xk)).ghostsUsed && !we.unsent then c.modCtx xk fun x => { x with waiting := some { we with timedOut := true } }
      else (c.ghostWaiting xk).answer xk eid (.value 2 e.now)
    else c
  | none => c
/-- GRANT at a core, or the answer TIMEOUT or DEADLOCK of the home (R327, R329, R339). A deadline that an earlier cycle has reached
comes before it; in the cycle of the deadline the grant wins. A pass that has no data of a global line, because a split has emptied the
L1 of the core that passes (R160), brings what the home holds. -/
def grantAt (e : Env) (c : Chip) (w : Waiter) (k : LKey) (status : Nat) (data : List Byte) : Chip :=
  let ck := coreOf w.xk
  let data := if data.isEmpty && decide (status < 2) then c.lockData e k w.vi else data
  let c := c.amoDone ck w.eid
  let c := if (c.ctx w.xk).waiting.any (fun we => we.eid == w.eid && we.deadline.any (· < e.now)) then lockTimeout e c w.xk w.eid else c
  let x := c.ctx w.xk
  if x.ops.any (fun o => o.parts.any (·.id == w.eid)) then
    let op := ((x.ops.find? (fun o => o.parts.any (·.id == w.eid))).elim 0 (·.id))
    let dst := ((x.ops.find? (·.id == op)).elim .none (·.dst))
    let c := if status < 2 then c.takeLock w k none data else c
    (c.deliver w.xk dst 0 (leBytes 8 status)).modCtx w.xk fun x => (x.dropPart op w.eid 0).settle op
  else match x.waiting with
    | some we =>
      if we.eid = w.eid then
        if 2 ≤ status then (c.modCtx w.xk fun x => { x with waiting := none }).answer w.xk w.eid (.value (w64 status) e.now)
        else if x.st = .halt then
          (c.modCtx w.xk fun x => { x with waiting := some { we with granted := some status, gdata := data, key := some k } }).timer (e.now + 4096) (.skipTimer w.xk w.eid)
        else ((c.modCtx w.xk fun x => { x with waiting := none }).takeLock w k we.next data).answer w.xk w.eid (.value (w64 (status + bn we.requeued * 256)) e.now)
      else other c ck
    | none => other c ck
where
  other (c : Chip) (ck : Nat) : Chip :=
    match (c.core ck).ghosts.find? (·.w == w) with
    | some g => if 2 ≤ status then c.dropGhost w else c.pass w k g.next status data false g.extra
    | none => if status < 2 then (c.dropLink w).pass w k (c.linkOf w) status data false true else c
/-- LINK at a core (R328, R329). One that overtakes the GRANT of an LKTRY is kept for it, even where the context has ended since. -/
def linkAt (c : Chip) (w : Waiter) (_k : LKey) (n : Waiter) : Chip :=
  let ck := coreOf w.xk
  let x := c.ctx w.xk
  let hk := c.holderOf w
  let c := if (c.ctx hk).held.any (·.eid == w.eid) then
      c.modCtx hk fun x => { x with held := updFirst (·.eid == w.eid) (fun h => { h with next := some n }) x.held }
    else if x.waiting.any (·.eid == w.eid) then c.modCtx w.xk fun x => { x with waiting := x.waiting.map fun we => { we with next := some n } }
    else if x.ops.any (fun o => o.parts.any (·.id == w.eid)) || (c.core ck).amoOut.any (·.2.part == w.eid) then c.modCore ck fun m => { m with links := (w, n) :: m.links.filter (·.1 != w) }
    else c
  (c.modCore ck fun m => { m with ghosts := updAll (·.w == w) (fun g => { g with next := some n }) m.ghosts }).ghostGo ck w
/-- WAITLINK at a core (R328). -/
def waitlinkAt (c : Chip) (w : Waiter) (_k : LKey) : Chip :=
  let ck := coreOf w.xk
  (c.modCore ck fun m => { m with ghosts := updAll (·.w == w) (fun g => { g with told := true }) m.ghosts }).ghostGo ck w
/-- BREAK at the holder's core (R330, R391). -/
def breakAt (c : Chip) (w : Waiter) (k : LKey) : Chip :=
  let ck := coreOf w.xk
  let hk := c.holderOf w
  let x := c.ctx hk
  match x.held.find? (fun h => h.eid == w.eid && !h.lost) with
  | some h =>
    let (c, data) := c.dropLocked hk h.line
    let c := c.modCtx hk fun x => { x with held := updFirst (·.eid == w.eid) (fun h => { h with lost := true }) x.held }
    (c.count w.vi fun n => { n with lkbreak := n.lkbreak + 1 }).pass w k h.next 1 data true true
  | none =>
    match (c.core ck).ghosts.find? (fun g => g.w == w && g.holds.isSome) with
    | some g =>
      let c := c.modCore ck fun m => { m with ghosts := updAll (·.w == w) (fun g => { g with holds := none, lost := true }) m.ghosts }
      (c.count w.vi fun n => { n with lkbreak := n.lkbreak + 1 }).pass w k g.next 1 g.data true true
    | none => c.send (coreNode ck) k.home .amo (.breakAck k w none true)
/-- A new LOCK of a skipped waiter leaves straight for its lock home, behind the HANDOFF or RELEASE of the pass, as soon as the
limit of R306 has room (R329). -/
def Chip.requeue (e : Env) (c : Chip) (xk : Nat) : Chip :=
  let x := c.ctx xk
  match x.waiting with
  | some we =>
    let key := we.key.getD ⟨0, 0⟩
    let home := amoHome key.home key.addr
    if we.unsent && !c.amoFull (coreOf xk) home then
      let q : Req := { src := xk, part := we.eid, vi := x.vi, act := .lock false we.hold x.dlen (x.held.any fun h => !h.lost) we.eid, va := we.line, n := 128, pa := key.addr, home := key.home }
      let (c, q) := (c.modCtx xk fun x => { x with waiting := some { we with unsent := false } }).amoNote e home q
      c.send (coreNode (coreOf xk)) key.home .amo (.lockRequest q)
    else c
  | none => c
/-- The skip timer of a grant to a halted waiter (R329). -/
def skipAt (e : Env) (c : Chip) (xk eid : Nat) : Chip :=
  let x := c.ctx xk
  match x.waiting with
  | some we =>
    match we.granted with
    | some st =>
      if we.eid = eid ∧ x.st = .halt then
        let key := we.key.getD ⟨0, 0⟩
        let c := c.pass ⟨xk, eid, we.hold, x.vi, we.line⟩ key we.next st we.gdata false true
        let n := c.serial
        let c := (c.next.modCtx xk fun x => { x with waiting := some { we with eid := n, next := none, granted := none, gdata := [], requeued := true, unsent := true },
                                                     pend := if x.pend.kind = .lock then { x.pend with id := n } else x.pend }).requeue e xk
        let c := match we.deadline with | some t => c.timer t (.lockDeadline xk n) | none => c
        c.count x.vi fun k => { k with lkskip := k.lkskip + 1 }
      else c
    | none => c
  | none => c
/-- A context that resumes takes a grant that waits for it (R329). -/
def Chip.takeGrant (e : Env) (c : Chip) (xk : Nat) : Chip :=
  let x := c.ctx xk
  match x.waiting with
  | some we =>
    match we.granted with
    | some st => ((c.modCtx xk fun x => { x with waiting := none }).takeLock ⟨xk, we.eid, we.hold, x.vi, we.line⟩ (we.key.getD ⟨0, 0⟩) we.next we.gdata).answer xk we.eid (.value (w64 (st + bn we.requeued * 256)) e.now)
    | none => c
  | none => c
/-- ENQUEUED at the core: the request no longer counts in the limit (R324). -/
def enqueuedAt (c : Chip) (q : Req) : Chip :=
  (c.amoDone (coreOf q.src) q.part).modCtx q.src fun x =>
    { x with waiting := x.waiting.map fun we => if we.eid = q.part then { we with key := some ⟨q.home, q.pa / 128 * 128⟩ } else we }
/-- A refused lock-table request is sent again, for a context or for the ghost that stands in for it (R324, R329). -/
def lockRetryAt (c : Chip) (q : Req) : Chip :=
  let x := c.ctx q.src
  if x.waiting.any (·.eid == q.part) ∨ x.ops.any (fun o => o.parts.any (·.id == q.part)) ∨ (c.core (coreOf q.src)).ghosts.any (·.w.eid == q.part) then
    c.send (reqFrom q) q.home .amo (.lockRequest q)
  else c.amoDone (coreOf q.src) q.part

/-! ### Deadlock probes (R332, R333) -/

/-- PROBE at a holder's core and at the home of the line it waits for (R332). -/
def probeAt (c : Chip) (q : Req) (hops : Nat) (h first : Waiter) : Chip :=
  let res (dead : Bool) : Chip := c.send (coreNode (coreOf h.xk)) q.home .rsp (.probeResult q dead hops first)
  let x := c.ctx (c.holderOf h)
  if x.held.any (·.eid == h.eid) then
    match x.waiting with
    | none => res false
    | some we =>
      match (we.key.bind c.lockEnt).bind (·.holder) with
      | none => res false
      | some h' =>
        if h'.xk = q.src then res true
        else if 8 ≤ hops then res false
        else c.send (coreNode (coreOf h.xk)) (coreNode (coreOf h'.xk)) .amo (.probe q (hops + 1) h' first)
  else res false
/-- The result of a probe at the home that started it (R327, R332). -/
def probeDone (e : Env) (c : Chip) (q : Req) (dead : Bool) (hops : Nat) (first : Waiter) : Chip :=
  let c := c.modHome q.home fun h => { h with probes := h.probes.filter fun p => p.q.part ≠ q.part }
  if dead then
    (c.lockDone q (.grant 3 [])).send q.home (viNode q.vi) .mgt (.deadlockReport q.vi (lineOf q.va) q.src hops first.xk)
  else lockAt e c q false
/-- A deadlock report at the interface's dispatcher (R333); a log line in a page that its owner is giving back waits for it (R173). -/
def deadlockReported (e : Env) (c : Chip) (vi : Nat) (line : W64) (xk hops first : Nat) : Chip :=
  let n := (c.vi vi).ctr.lkdeadlock + 1
  let lg := (c.vi vi).lklog.toNat
  let done := c.count vi fun k => { k with lkdeadlock := k.lkdeadlock + 1 }
  let a := w64 (bits lg 13 39 * 2 ^ 13 + 32 * (n.toNat % 256))
  if !bit lg 0 || !isGlobal a then done
  else match done.reach e vi a 1 none none with
    | .ok (c, h, pa) => c.homeWrite e unitWriter h vi pa (leBytes 8 n.toNat ++ leBytes 8 line.toNat ++ leBytes 8 (ctxId c.group xk + hops * 2 ^ 32) ++ leBytes 8 (ctxId c.group first))
    | .error err => if err.1 = heldCode then (c.askPage e vi a 1).timer (e.now + 1) (.deadlockReport vi line xk hops first) else done

/-! ### The instructions (R337 to R340) -/

/-- The checks at issue of a lock instruction on its line (R323, R336). -/
def Chip.lockCheck (c : Chip) (xk : Nat) (a : W64) : Option Nat := c.check xk (lineOf a) 128 1
/-- A refusal answered to a stalled instruction (R460): a precise trap, or the stop of the earlier refusals. -/
def Chip.answered (c : Chip) (xk code : Nat) (tval : W64) : Fate :=
  if (c.ctx xk).hasRefused then .wait (c.modCtx xk fun x => { x with pend := {} }) .free else .trap code tval

/-- The request is a lock request. -/
def Act.isLock (a : Act) : Bool := match a with | .lock .. => true | _ => false
/-- LKTRYs of the context that are still out: each may come to hold a lock (R325). -/
def Ctx.triesOut (x : Ctx) : Nat := (x.ops.filter fun o => o.parts.any fun p => Act.isLock p.q.act).length
/-- Refused LKTRYs of the context that are still to be issued again. -/
def Ctx.triesLeft (x : Ctx) : Nat := ((x.ops ++ x.replay).filter fun o => o.refused.any fun p => Act.isLock p.p.q.act).length
/-- The four held entries of a context (R325, R337): full, LKDEPTH; full once the LKTRYs still out are granted, the context waits
for their answers. An LKTRY that is to be issued again keeps an entry (log 94). -/
def Ctx.lockRoom (c : Chip) (x : Ctx) (ad : W64) (k : Fate) : Fate :=
  if 4 ≤ x.held.length + x.triesLeft then .trap 0x0C ad
  else if 4 ≤ x.held.length + x.triesLeft + x.triesOut then .wait c (.ctrs 0 63 63 63 63)
  else k
/-- The context holds a lock, which asks for a probe (R332). -/
def Ctx.holdsLock (x : Ctx) : Bool := x.held.any fun h => !h.lost
/-- LOCK (R337). -/
def execLock (d a b : BitVec 5) (s : State) : Host.Outcome State Fault Refusal :=
  run s fun e c => issue e c (.lock d a b) { x := [d.toNat, a.toNat, b.toNat], mem := true } fun e c xk x =>
    let ad := x.getX a.toNat
    let line := lineOf ad
    if x.pend.kind = .lock then
      match x.pend.ans with
      | some (.value v _) => .retire (c.modCtx xk fun x => x.setX d.toNat v)
      | some (.refused code _) => (c.modCtx xk fun x => { x with waiting := none }).answered xk code ad
      | none => .wait c .answer
    else match c.lockCheck xk ad with
      | some code => .trap code ad
      | none =>
        match x.lostOver line 128 with
        | some h => c.takeLost xk h ad
        | none =>
          if x.held.any (·.line == line) then .retire (c.modCtx xk fun x => x.setX d.toNat 3)
          else x.lockRoom c ad (c.sealed xk (
            let q : Req := { src := xk, part := c.serial, vi := x.vi, act := .lock false x.holdlg x.dlen x.holdsLock c.serial, va := line, n := 128 }
            let home := c.homeOf e q
            if c.amoFull (coreOf xk) home then .wait c (.amoRoom home) else
            let t := if x.getX b.toNat = 0 then none else some (e.now + (x.getX b.toNat).toNat)
            let c' := c.next.modCtx xk fun x => { x with
              pend := { kind := .lock, id := c.serial },
              waiting := some { line := line, eid := c.serial, hold := x.holdlg, deadline := t, key := c.placeOf e q } }
            let c' := c'.amoSend e home q
            .wait (match t with | some t => c'.timer t (.lockDeadline xk c.serial) | none => c') .answer))
/-- UNLOCK (R338). -/
def execUnlock (a : BitVec 5) (s : State) : Host.Outcome State Fault Refusal :=
  run s fun e c => issue e c (.unlock a) { x := [a.toNat], mem := true } fun e c xk x =>
    let ad := x.getX a.toNat
    match c.lockCheck xk ad with
    | some code => .trap code ad
    | none =>
      match x.lostOver (lineOf ad) 128 with
      | some h => c.takeLost xk h ad
      | none =>
        match x.held.find? (·.line == lineOf ad) with
        | none => .retire c
        | some h =>
          if x.cnt .ld ≠ 0 ∨ x.cnt .st ≠ 0 ∨ x.cnt .cp ≠ 0 then .wait c (.ctrs 0 0 0 63 63)
          else if e.now < x.vismax then .wait c (.time x.vismax)
          else if 16 ≤ (c.core (coreOf xk)).ghostsUsed then .wait c (.ghosts 1)
          else .retire (c.giveUp xk h 0)
/-- LKTRY (R339). -/
def execLktry (d a : BitVec 5) (s : State) : Host.Outcome State Fault Refusal :=
  run s fun e c => issue e c (.lktry d a) { x := [d.toNat, a.toNat], mem := true, ctr := .ld } fun e c xk x =>
    let ad := x.getX a.toNat
    let line := lineOf ad
    match c.lockCheck xk ad with
    | some code => .trap code ad
    | none =>
      match x.lostOver line 128 with
      | some h => c.takeLost xk h ad
      | none =>
        if x.held.any (·.line == line) then .retire (c.modCtx xk fun x => x.setX d.toNat 3)
        else x.lockRoom c ad (c.sealed xk (
          let id := c.serial
          let q : Req := { src := xk, op := id, part := id + 1, vi := x.vi, act := .lock true x.holdlg x.dlen x.holdsLock (id + 1), va := line, n := 128 }
          let home := c.homeOf e q
          if c.amoFull (coreOf xk) home then .wait c (.amoRoom home)
          else .retire ((c.next.next.addOp xk { id := id, kind := .ask, ctr := .ld, dst := .x d.toNat 8 false, parts := [⟨id + 1, 0, q⟩] }).amoSend e home q)))
/-- LKQ (R340). -/
def execLkq (d a : BitVec 5) (s : State) : Host.Outcome State Fault Refusal :=
  run s fun e c => issue e c (.lkq d a) { x := [d.toNat, a.toNat], mem := true, ctr := .ld } fun e c xk x =>
    let ad := x.getX a.toNat
    match c.lockCheck xk ad with
    | some code => .trap code ad
    | none =>
      let id := c.serial
      let q : Req := { src := xk, op := id, part := id + 1, vi := x.vi, act := .lkq, va := lineOf ad, n := 128 }
      let home := c.homeOf e q
      if c.amoFull (coreOf xk) home then .wait c (.amoRoom home)
      else .retire ((c.next.next.addOp xk { id := id, kind := .ask, ctr := .ld, dst := .x d.toNat 8 false, parts := [⟨id + 1, 0, q⟩] }).amoSend e home q)

/-! ### The events -/

/-- LOCK_REQUEST (R327). -/
def execLockRequest (q : Req) (s : State) : Host.Outcome State Fault Refusal := run s fun e c => lockArrives e c q
/-- LKQ_REQUEST (R340). -/
def execLkqRequest (q : Req) (s : State) : Host.Outcome State Fault Refusal := run s fun _ c => lkqAt c q
/-- LOCK_TABLE_RETRY (R324). -/
def execLockTableRetry (q : Req) (s : State) : Host.Outcome State Fault Refusal := run s fun _ c => lockRetryAt c q
/-- ENQUEUED (R324). -/
def execEnqueued (q : Req) (s : State) : Host.Outcome State Fault Refusal := run s fun _ c => enqueuedAt c q
/-- LINK (R328, R329). -/
def execLkLink (tgt : Waiter) (k : LKey) (w : Waiter) (s : State) : Host.Outcome State Fault Refusal := run s fun _ c => linkAt c tgt k w
/-- GRANT (R326, R329). -/
def execGrant (tgt : Waiter) (k : LKey) (status : Nat) (data : List Byte) (s : State) : Host.Outcome State Fault Refusal :=
  run s fun e c => grantAt e c tgt k status data
/-- HANDOFF (R327). -/
def execHandoff (k : LKey) (frm new : Waiter) (s : State) : Host.Outcome State Fault Refusal := run s fun e c => handoffAt e c k frm new
/-- RELEASE (R327). -/
def execLkRelease (k : LKey) (frm : Waiter) (status : Nat) (s : State) : Host.Outcome State Fault Refusal := run s fun e c => releaseAt e c k frm status
/-- WAITLINK (R328). -/
def execWaitlink (tgt : Waiter) (k : LKey) (s : State) : Host.Outcome State Fault Refusal := run s fun _ c => waitlinkAt c tgt k
/-- BREAK (R330). -/
def execLkBreak (tgt : Waiter) (k : LKey) (s : State) : Host.Outcome State Fault Refusal := run s fun _ c => breakAt c tgt k
/-- BREAKACK (R327, R330). -/
def execBreakAck (k : LKey) (frm : Waiter) (next : Option Waiter) (released : Bool) (s : State) : Host.Outcome State Fault Refusal :=
  run s fun e c => breakAcked e c k frm next released
/-- HOLD_DEADLINE (R327). -/
def execHoldDeadline (k : LKey) (stamp : Nat) (s : State) : Host.Outcome State Fault Refusal := run s fun e c => holdExpired e c k stamp
/-- LOCK_DEADLINE (R329, R337). -/
def execLockDeadline (xk eid : Nat) (s : State) : Host.Outcome State Fault Refusal := run s fun e c => lockTimeout e c xk eid
/-- SKIP_TIMER (R329). -/
def execSkipTimer (xk eid : Nat) (s : State) : Host.Outcome State Fault Refusal := run s fun e c => skipAt e c xk eid
/-- PROBE (R332). -/
def execProbe (q : Req) (hops : Nat) (h first : Waiter) (s : State) : Host.Outcome State Fault Refusal := run s fun _ c => probeAt c q hops h first
/-- PROBE_RESULT (R327, R332). -/
def execProbeResult (q : Req) (dead : Bool) (hops : Nat) (first : Waiter) (s : State) : Host.Outcome State Fault Refusal :=
  run s fun e c => probeDone e c q dead hops first
/-- DEADLOCK_REPORT (R333). -/
def execDeadlockReport (vi : Nat) (line : W64) (xk hops first : Nat) (s : State) : Host.Outcome State Fault Refusal :=
  run s fun e c => deadlockReported e c vi line xk hops first

end Sys2Proof.Machine
end

