-- ==== Sys2Proof/Machine/Sync.lean ====
section
/-! DEFINITION. Fences, acquire and release accesses, and atomics with their requests, replies and records (R286 to R312). -/
namespace Sys2Proof.Machine
open Sys2Proof

/-! ### FENCE, LDACQ, STREL (R308 to R310) -/

/-- FENCE (R308): kind 1 ACQ, 2 REL, 3 ACQREL. An acquire also ends what fetch has kept of the changes of its scope (R106). -/
def execFence (sc : BitVec 4) (k : BitVec 2) (s : State) : Host.Outcome State Fault Refusal :=
  run s fun e c => issue e c (.fence sc k) {} fun e c xk x =>
    let rel := k.toNat / 2 = 1
    let acq := k.toNat % 2 = 1
    if rel ∧ (x.cnt .ld ≠ 0 ∨ x.cnt .st ≠ 0 ∨ x.cnt .cp ≠ 0) then .wait c (.ctrs 0 0 0 63 63)
    else if rel ∧ 3 ≤ sc.toNat ∧ e.now < x.vismax then .wait c (.time x.vismax)
    else if acq ∧ x.cnt .ld ≠ 0 then .wait c (.ctrs 0 63 63 63 63)
    else if acq then
      .retire ((c.acquire (coreOf xk) sc.toNat).modCtx xk fun y => { y with kept := c.keepCode e (coreOf xk) sc.toNat y.kept })
    else .retire c
/-- An ordered access leaves its core; a scratchpad home outside the scope is a scope miss at the core's own network interface (R297). -/
def Chip.sendOrdered (c : Chip) (xk : Nat) (q : Req) (scope : Nat) : Chip :=
  if space q.va = 1 then
    match c.spParse q.va 1 with
    | some (ck, off) =>
      if inScope (coreOf xk) scope (coreNode ck) then c.request q
      else c.send (ownNode xk) (ownNode xk) .ctl (.scopeMiss { q with home := coreNode ck, pa := sram ck off })
    | none => c
  else c.request q
/-- LDACQ (R309). Its acquire ends after the context's earlier loads and atomics (R294), so it leaves once they are over; one of them that
is refused stops the context at the LDACQ, without its effect (R423). -/
def execLdacq (d a : BitVec 5) (sc : BitVec 4) (s : State) : Host.Outcome State Fault Refusal :=
  run s fun e c => issue e c (.ldacq d a sc) { x := [d.toNat, a.toNat], mem := true, ctr := .ld } fun _ c xk x =>
    let ad := x.getX a.toNat
    accessFate c xk x 8 [(0, ad, 8)] (
      match c.emptyPiece xk [(0, ad, 8)] with
      | some (off, n) => .wait c (.full off n)
      | none =>
        if x.cnt .ld ≠ 0 then .wait c (.ctrs 0 63 63 63 63) else
        let q : Req := { src := xk, op := c.serial, part := c.serial + 1, vi := x.vi, act := .ldacq sc.toNat, va := ad, n := 8 }
        .retire ((c.next.next.addOp xk { id := q.op, kind := .ldacq sc.toNat, ctr := .ld, dst := .x d.toNat 8 false, parts := [⟨q.part, 0, q⟩] }).sendOrdered xk q sc.toNat))
/-- The release conditions of an STREL's request: the context's earlier loads, stores and copies are over, and for ROW or wider
GTIME has reached VISMAX (R292, R310). Accesses that were refused have left the counters, and do not hold it (R149, log 95). -/
def strelReady (c : Chip) (now : Nat) (q : Req) : Bool :=
  match q.act with
  | .strel s _ =>
    let x := c.ctx q.src
    !(x.ops.any fun o => decide (o.id < q.op) && (o.ctr == .ld || o.ctr == .st || o.ctr == .cp)) && (decide (s < 3) || decide (x.vismax ≤ now))
  | _ => true
/-- The STRELs of a context whose release conditions hold leave, with the VISMAX of that moment (R297, R310). -/
def Chip.sendReady (c : Chip) (now xk : Nat) : Chip :=
  ((c.ctx xk).ops.filter (·.hold)).foldl (fun c o => match o.parts.head? with
    | some p =>
      if strelReady c now p.q then
        (match p.q.act with
         | .strel s _ => (c.modCtx xk fun x => { x with ops := updFirst (fun y => y.id == o.id && y.hold) (fun y => { y with hold := false }) x.ops }).sendOrdered xk
             { p.q with act := .strel s (c.ctx xk).vismax } s
         | _ => c)
      else c
    | none => c) c
/-- STREL (R310): the request leaves once its release conditions hold. -/
def execStrel (a b : BitVec 5) (sc : BitVec 4) (s : State) : Host.Outcome State Fault Refusal :=
  run s fun e c => issue e c (.strel a b sc) { x := [a.toNat, b.toNat], mem := true, ctr := .st } fun e c xk x =>
    let ad := x.getX a.toNat
    accessFate c xk x 8 [(0, ad, 8)] (c.sealOut xk [(ad, 8)] (
      let q : Req := { src := xk, op := c.serial, part := c.serial + 1, vi := x.vi, act := .strel sc.toNat x.vismax, va := ad, n := 8,
                       data := leBytes 8 (x.getX b.toNat).toNat }
      .retire ((c.next.next.addOp xk { id := q.op, kind := .strel, ctr := .st, parts := [⟨q.part, 0, q⟩], hold := true }).sendReady e.now xk)))

/-! ### Atomics (R304 to R307, R312) -/

/-- The new value of an atomic, none where AMCAS fails, and its flags (R307, R312): `n` bytes, old value, operands v and c. -/
def amoCalc (op n old v cmp : Nat) : Option Nat × Nat :=
  let m := 2 ^ (8 * n)
  let sgn (u : Nat) : Int := (BitVec.ofNat (8 * n) u).toInt
  let fl (t : Nat) : Option Nat × Nat := let (r, f) := fpAdd t old v 0 false; (some r, f.toNat)
  match op with
  | 0 => (some ((old + v) % m), 0)
  | 1 => (some (old &&& v), 0)
  | 2 => (some (old ||| v), 0)
  | 3 => (some (old ^^^ v), 0)
  | 4 => (some (if sgn v < sgn old then v else old), 0)
  | 5 => (some (if sgn old < sgn v then v else old), 0)
  | 6 => (some (Nat.min old v), 0)
  | 7 => (some (Nat.max old v), 0)
  | 8 => (some v, 0)
  | 9 => (if old = cmp then some v else none, 0)
  | 10 => fl 0
  | _ => fl 1

/-- An atomic performed at its home exactly once (R304 to R306). -/
def atomicAt (e : Env) (c0 : Chip) (q : Req) : Chip :=
  let c := c0
  match q.act with
  | .atomic op v cmp =>
    let reply (c : Chip) (old : W64) (vt flags : Nat) : Chip :=
      if q.host then c.sendExt q (.atomicReply q old vt flags) else c.send q.home (reqFrom q) .rsp (.atomicReply q old vt flags)
    match (c.home q.home).recOf q with
    | some r => reply c r.old r.vt r.flags
    | none =>
      match (if nodeIsCore q.home then c.remoteOk q q.n else none) with
      | some code => c.refuse q.home q code 0
      | none =>
        if c.badAt q.pa q.n then c.refuse q.home q 0x10 0 else
        let old := leNat (if nodeIsCore q.home then rdN e c q.pa q.n else c.homeRead e q.vi q.pa q.n)
        let (new, flags) := amoCalc op q.n old (v.toNat % 2 ^ (8 * q.n)) (cmp.toNat % 2 ^ (8 * q.n))
        let c := if new.isSome then c.enter q.home q.pa else c
        let vt := if new.isSome then c.ackTime e q.home q.pa else e.now
        let c := match new with
          | some w =>
            if nodeIsCore q.home then c.putSp e (nodeCore q.home) (q.pa - sram (nodeCore q.home) 0) (leBytes q.n w)
            else (c.homeWrite e (reqWriter q) q.home q.vi q.pa (leBytes q.n w)).dropFills q
          | none => c
        if q.home = bridgeNode ∧ c0.linkGone (extHost q.pa) then (if Config.performed c0.serial then c else c0).refuse q.home q 0x14 0
        else reply (c.modHome q.home fun h => h.addRec { src := coreOf q.src, part := q.part, seq := q.seq, old := w64 old, flags := flags, vt := vt, key := amoHome q.home q.pa }) (w64 old) vt flags
  | _ => c0
/-- An idle handler context of a core, C6 first (R68). -/
def Chip.idleHandler (c : Chip) (ck : Nat) : Option Nat := [ck * 8 + 6, ck * 8 + 7].find? fun xk => (c.ctx xk).free
/-- The source in the list of flights of an atomic that its core holds: a pair of its own (R68, R304). -/
def heldFrom (q : Req) : Nat := 2 ^ 21 + reqFrom q
/-- ATOMIC_REQUEST (R304): at a scratchpad a handler context performs it, or it queues, or it is refused. Its core then holds it and
offers it again after 256 cycles, and later ones of the pair are refused until it is accepted; `stale` marks one that is offered again. -/
def execAtomicRequest (q : Req) (s : State) : Host.Outcome State Fault Refusal :=
  run s fun e c =>
    let ck := nodeCore q.home
    let hold : Flight := ⟨heldFrom q, q.home, .amo, e.now + c.reqTicks q retryTicks, .atomicRequest { q with stale := true }⟩
    if !nodeIsCore q.home then atomicAt e c q
    else if !q.stale && c.net.any (fun f => f.src == heldFrom q && f.dst == q.home) then { c with net := c.net ++ [hold] }
    else if (c.idleHandler ck).isSome && (c.core ck).hq.isEmpty then atomicAt e c q
    else if (c.core ck).hq.length < 16 then c.modCore ck fun k => { k with hq := k.hq ++ [.atomic q] }
    else { c with net := hold :: c.net }
/-- ATOMIC_REPLY (R305 to R307): the first reply writes xd, raises VISMAX and ORs in the flags; the context's own locked line follows. -/
def execAtomicReply (q : Req) (old : W64) (vt flags : Nat) (s : State) : Host.Outcome State Fault Refusal :=
  run s fun e c =>
    let xk := q.src
    let x := c.ctx xk
    let c := c.amoDone (coreOf xk) q.part
    if x.partOut q.op q.part then
      let dst := (x.ops.find? (·.id == q.op)).elim .none (·.dst)
      let vt := if q.home = bridgeNode then max vt e.now else vt
      let new := match q.act with
        | .atomic op v cmp => (amoCalc op q.n (old.toNat % 2 ^ (8 * q.n)) (v.toNat % 2 ^ (8 * q.n)) (cmp.toNat % 2 ^ (8 * q.n))).1
        | _ => none
      let c := match new with
        | some w =>
          let mine (l : L1Line) : Bool := l.kind == L1Kind.locked xk && l.vi == q.vi && l.va == lineOf q.va
          c.modCore (coreOf xk) fun k => { k with l1 := updAll mine (fun l => l.put q.va (leBytes q.n w)) k.l1 }
        | none => c
      (c.deliver xk dst 0 (leBytes q.n old.toNat)).modCtx xk fun x => ((x.flagDone (BitVec.ofNat 6 flags)).dropPart q.op q.part vt).settle q.op
    else c
/-- ATOMIC_RESEND (R306): an unanswered request of class AMO is sent again with its sequence number. -/
def execAtomicResend (q : Req) (s : State) : Host.Outcome State Fault Refusal :=
  run s fun e c =>
    if (c.core (coreOf q.src)).amoOut.any (fun p => p.2.part == q.part) then (c.request q).timer (e.now + c.reqTicks q 65536) (.atomicResend q) else c
/-- An atomic instruction (R305, R306, R312): `n` bytes, sign extension of the old value. -/
def atomic (i : Instr) (op : Nat) (d a b : BitVec 5) (n : Nat) (sx : Bool) (s : State) : Host.Outcome State Fault Refusal :=
  run s fun e c => issue e c i { x := [d.toNat, a.toNat, b.toNat], mem := true, ctr := .ld } fun e c xk x =>
    let ad := x.getX a.toNat
    accessFate c xk x n [(0, ad, n)] (c.sealed xk (
      let id := c.serial
      let q : Req := { src := xk, op := id, part := id + 1, vi := x.vi, act := .atomic op (x.getX b.toNat) (x.getX d.toNat), va := ad, n := n }
      let home := c.homeOf e q
      if c.amoFull (coreOf xk) home then .wait c (.amoRoom home)
      else
        let q := { q with seq := (c.core (coreOf xk)).amoSeq.get 0 home }
        let old (l : L1Line) : Bool := l.vi == x.vi && l.va == lineOf ad && (match l.kind with | .leased _ => true | _ => false)
        let c := c.modCore (coreOf xk) fun k => { k with l1 := k.l1.filter fun l => !old l }
        .retire ((c.next.next.addOp xk { id := id, kind := .atomic, ctr := .ld, dst := .x d.toNat n sx, parts := [⟨id + 1, 0, q⟩] }).amoSend e home q)))
/-- An atomic with a width bit (R312). -/
def atomicW (i : Instr) (op : Nat) (d a b : BitVec 5) (w : BitVec 1) (s : State) : Host.Outcome State Fault Refusal :=
  atomic i op d a b (if w = 1 then 4 else 8) (op ≠ 6 && op ≠ 7) s
/-- AMADD (R312). -/
def execAmadd (d a b : BitVec 5) (w : BitVec 1) (s : State) : Host.Outcome State Fault Refusal := atomicW (.amadd d a b w) 0 d a b w s
/-- AMAND (R312). -/
def execAmand (d a b : BitVec 5) (w : BitVec 1) (s : State) : Host.Outcome State Fault Refusal := atomicW (.amand d a b w) 1 d a b w s
/-- AMOR (R312). -/
def execAmor (d a b : BitVec 5) (w : BitVec 1) (s : State) : Host.Outcome State Fault Refusal := atomicW (.amor d a b w) 2 d a b w s
/-- AMXOR (R312). -/
def execAmxor (d a b : BitVec 5) (w : BitVec 1) (s : State) : Host.Outcome State Fault Refusal := atomicW (.amxor d a b w) 3 d a b w s
/-- AMMIN (R312). -/
def execAmmin (d a b : BitVec 5) (w : BitVec 1) (s : State) : Host.Outcome State Fault Refusal := atomicW (.ammin d a b w) 4 d a b w s
/-- AMMAX (R312). -/
def execAmmax (d a b : BitVec 5) (w : BitVec 1) (s : State) : Host.Outcome State Fault Refusal := atomicW (.ammax d a b w) 5 d a b w s
/-- AMMINN (R312). -/
def execAmminn (d a b : BitVec 5) (w : BitVec 1) (s : State) : Host.Outcome State Fault Refusal := atomicW (.amminn d a b w) 6 d a b w s
/-- AMMAXN (R312). -/
def execAmmaxn (d a b : BitVec 5) (w : BitVec 1) (s : State) : Host.Outcome State Fault Refusal := atomicW (.ammaxn d a b w) 7 d a b w s
/-- AMSWP (R312). -/
def execAmswp (d a b : BitVec 5) (w : BitVec 1) (s : State) : Host.Outcome State Fault Refusal := atomicW (.amswp d a b w) 8 d a b w s
/-- AMCAS (R312). -/
def execAmcas (d a b : BitVec 5) (w : BitVec 1) (s : State) : Host.Outcome State Fault Refusal := atomicW (.amcas d a b w) 9 d a b w s
/-- AMFADD (R307, R312). -/
def execAmfadd (d a b : BitVec 5) (s : State) : Host.Outcome State Fault Refusal := atomic (.amfadd d a b) 10 d a b 4 false s
/-- AMDADD (R307, R312). -/
def execAmdadd (d a b : BitVec 5) (s : State) : Host.Outcome State Fault Refusal := atomic (.amdadd d a b) 11 d a b 8 false s

end Sys2Proof.Machine
end

