-- ==== Sys2Proof/Machine/Message.lean ====
section
/-! DEFINITION. Starting work on a context, messages and mailboxes, actors and their eviction, tasks, counters,
watchpoints and messages to the host (R30, R59, R68, R69, R341 to R361). -/
namespace Sys2Proof.Machine
open Sys2Proof

/-! ### Starting work on a context (R30, R59, R69, R348, R354, R372) -/

/-- A context as it starts work: TRAPVEC is VITRAP, the listed registers are written, every other one is as at reset. -/
def Ctx.begun (x : Ctx) (kind : Kind) (vi : Nat) (trapvec pc : W64) (xs : List (Nat × W64)) : Ctx :=
  xs.foldl (fun y p => y.setX p.1 p.2)
    { ({} : Ctx) with st := .ready, kind := kind, vi := vi, trapvec := trapvec, pc := pc, stamp := x.stamp + 1 }
/-- Work starts on an idle context. -/
def Chip.startWork (c : Chip) (xk : Nat) (kind : Kind) (vi : Nat) (pc : W64) (xs : List (Nat × W64)) : Chip :=
  c.modCtx xk fun x => x.begun kind vi (c.vi vi).vitrap pc xs
/-- Handler budget in core cycles (R350). -/
def hBudget : Nat := 65536
/-- A handler run with a budget starts (R350). -/
def Chip.startHandler (e : Env) (c : Chip) (xk vi : Nat) (pc : W64) (xs : List (Nat × W64)) (mb : Option Nat) : Chip :=
  (c.startWork xk .handler vi pc xs).modCtx xk fun x => { x with budget := hBudget, budgetAt := e.now, perCycle := c.coreTicks (coreOf xk) 1, mbox := mb }
/-- Arguments in registers from x`n` up. -/
def argRegs (n : Nat) (l : List W64) : List (Nat × W64) := (List.range l.length).map fun i => (n + i, l.getD i 0)
/-- A general context that may start a host message or task: the lowest-numbered idle one (R58, R354, log 65). -/
def Chip.idleGeneral (c : Chip) (ck : Nat) : Option Nat := (List.range 6).findSome? fun n => if (c.ctx (ck * 8 + n)).free then some (ck * 8 + n) else none
/-- A host message starts on an idle general context (R59). -/
def Chip.hostStart (c : Chip) (xk : Nat) (m : HostMsg) : Chip :=
  (c.startWork xk .host m.vi m.pc [(14, m.a0), (15, m.a1)]).modCtx xk fun x => { x with hmsg := some m }
/-- The context falls idle; a waiting host message starts on a general context at once (R58). -/
def Chip.fallIdle (c : Chip) (xk : Nat) : Chip :=
  let c := c.setCtx xk { stamp := (c.ctx xk).stamp + 1 }
  match (c.core (coreOf xk)).hslots with
  | m :: r => if ctxNo xk < 6 then (c.modCore (coreOf xk) fun k => { k with hslots := r }).hostStart xk m else c
  | [] => c
/-- The checks of an operand that must be an own-window range (R156, R157, R159, R162). -/
def Chip.checkOwn (c : Chip) (xk : Nat) (a : W64) (n al : Nat) : Option Nat :=
  match c.check xk a n al with
  | some code => some code
  | none => if (c.ownOff xk a n).isNone then some 0x06 else none

/-! ### Names (R342) -/

/-- The name has no reserved bit set and names a core that exists. -/
def nameOk (n : W64) : Bool := bits n.toNat 40 24 == 0 && bits n.toNat 24 6 == 0 && bits n.toNat 17 3 == 0 && decide (bits n.toNat 0 10 < 768)
/-- The mailbox number of a name. -/
def nameMb (n : W64) : Nat := bits n.toNat 20 4
/-- SIZE of a name. -/
def nameSize (n : W64) : Nat := bits n.toNat 30 2
/-- TYPE of a name. -/
def nameType (n : W64) : Nat := bits n.toNat 32 8
/-- The name of a bound mailbox. -/
def mbName (group ck mb : Nat) (b : Mbox) : W64 := w64 (b.type * 2 ^ 32 + b.size * 2 ^ 30 + mb * 2 ^ 20 + coreAddr group ck)
/-- The mailbox `mb` of a core. -/
def Chip.mbox (c : Chip) (ck mb : Nat) : Mbox := (c.core ck).mbs.get ({} : Mbox) mb
/-- The package with a mailbox changed. -/
def Chip.modMbox (c : Chip) (ck mb : Nat) (f : Mbox → Mbox) : Chip := c.modCore ck fun k => { k with mbs := k.mbs.put mb (f (k.mbs.get ({} : Mbox) mb)) }
/-- A mailbox that is being unbound becomes unbound once its ring is empty and no run is in progress (R351). -/
def Chip.tryUnbind (c : Chip) (ck mb : Nat) : Chip :=
  let b := c.mbox ck mb
  if b.unbinding && b.count == 0 && !b.run then c.modMbox ck mb fun _ => {} else c

/-! ### Message units (R345, R347) -/

/-- The messages of a unit: of a core, or of a slice (R359). -/
def Chip.unitMsgs (c : Chip) (src : Nat) : List MuMsg := if 2 ^ 24 ≤ src then (c.home (src - 2 ^ 24)).msgs else (c.core (coreOf src)).msgs
/-- The package with the messages of a unit changed. -/
def Chip.modMsgs (c : Chip) (src : Nat) (f : List MuMsg → List MuMsg) : Chip :=
  if 2 ^ 24 ≤ src then c.modHome (src - 2 ^ 24) fun h => { h with msgs := f h.msgs }
  else c.modCore (coreOf src) fun k => { k with msgs := f k.msgs }
/-- The node a unit sends from. -/
def unitNode (src : Nat) : Nat := if 2 ^ 24 ≤ src then src - 2 ^ 24 else coreNode (coreOf src)
/-- The step by which a message arrives. -/
def msgEv (m : Msg) : Ev := match m.body with | .task _ => .taskArrive m | _ => .messageArrival m
/-- A message for another place of the group leaves through a fabric port, any other travels in the package. -/
def Chip.sendOut (c : Chip) (src dst : Nat) (cls : Cls) (ev : Ev) : Chip :=
  if 2 ^ 16 ≤ dst then { c with outbox := c.outbox ++ [(dst, ev)] } else c.send src dst cls ev
/-- Send or re-send a message. -/
def Chip.sendMsg (c : Chip) (m : Msg) : Chip := c.sendOut (unitNode m.src) m.dst .msg (msgEv m)
/-- Answer a message; 2^25 times one more than its device marks a sender of another device (log 13). -/
def Chip.answerMsg (c : Chip) (m : Msg) (ans : Nat) : Chip :=
  c.sendOut m.dst (if m.src / 2 ^ 25 ≠ 0 then extDevice (m.src / 2 ^ 25 - 1) else unitNode m.src) .rsp (.messageAnswer m ans)
/-- The context id of a message's sender (R336). -/
def Chip.senderId (c : Chip) (src : Nat) : Nat := if src / 2 ^ 25 ≠ 0 then ctxId (src / 2 ^ 25 - 1) (src % 2 ^ 25) else ctxId c.group src
/-- What names the pair of a message: the mailbox and core address, not TYPE and SIZE; a task and a host record have names of their own (R345). -/
def pairOf (name : W64) : W64 := if bit name.toNat 63 || bit name.toNat 62 then name else w64 (bits name.toNat 0 24)
/-- The unit has room for a message of the pair: 32 messages, 4 of the pair unanswered (R345). -/
def Chip.muRoom (c : Chip) (ck : Nat) (name : W64) : Bool :=
  decide ((c.core ck).msgs.length < 32) && decide (((c.core ck).msgs.filter fun m => m.inflight && pairOf m.m.name == pairOf name).length < 4)
/-- The node of a core address; another device of the group is reached through a fabric port (R342). -/
def Chip.addrNode (c : Chip) (a : Nat) : Nat := if bits a 13 4 = c.group % 16 then coreNode (addrCore a) else extDevice (bits a 13 4)
/-- A message leaves: sequence number of its pair, its place in the unit, one more in msg (R341, R345). -/
def Chip.post (c : Chip) (xk : Nat) (name : W64) (dst : Nat) (body : Body) (sendn : Bool) : Chip :=
  let ck := coreOf xk
  let x := c.ctx xk
  let seq := (((c.core ck).pairSeq.find? (·.1 == pairOf name)).map (·.2)).getD 0
  let id := c.serial
  let m : Msg := { id := id, src := xk, vi := x.vi, name := name, dst := dst, seq := seq, body := body, sendn := sendn }
  let c := (c.next.modCore ck fun k => { k with
      msgs := k.msgs ++ [{ m := m, xk := xk, op := id }], pairSeq := (pairOf name, (seq + 1) % 65536) :: k.pairSeq.filter (·.1 != pairOf name) })
  (c.addOp xk { id := id, kind := .msg name, ctr := .msg, parts := [⟨id, 0, {}⟩] }).sendMsg m
/-- The first message of a pair in a unit: no later one is offered again before it has been answered for good (R347, R431). -/
def firstOf (l : List MuMsg) (m : Msg) : Option MuMsg := l.find? fun y => pairOf y.m.name == pairOf m.name && y.m.dst == m.dst
/-- A held message may be re-offered: it is the first one of its pair, and not on its way again (R347). -/
def reofferable (l : List MuMsg) (m : MuMsg) : Bool := m.held && !m.inflight && (firstOf l m.m).map (·.m.id) == some m.m.id
/-- Withdraw a message whose refusal is outstanding (R347). -/
def Chip.withdrawMsg (c : Chip) (m : Msg) : Chip := c.sendOut (unitNode m.src) m.dst .msg (.withdraw m)
/-- Once a message of a pair is gone, the next one of the pair, where it is held, may be re-offered, 256 cycles after its refusal (R347). -/
def Chip.offerNext (now : Nat) (c : Chip) (m : Msg) : Chip :=
  match firstOf (c.unitMsgs m.src) m with
  | some z => if z.inflight || !z.held then c else c.timer (max now z.due) (.reoffer { z.m with reoffer := true })
  | none => c
/-- The messages of a context that ends or is saved: held ones are withdrawn, those on their way are disowned (R347). -/
def Chip.withdrawAll (c : Chip) (xk : Nat) : Chip :=
  let go := (c.core (coreOf xk)).msgs.filter fun m => m.xk == xk && m.held && !m.inflight
  go.foldl (fun c m => (c.withdrawMsg m.m).offerNext 0 m.m) (c.modCore (coreOf xk) fun k => { k with
    msgs := updAll (fun m => m.xk == xk) (fun m => { m with gone := true }) (k.msgs.filter fun m => !(m.xk == xk && m.held && !m.inflight)) })
/-- The context holds refused messages that have not been accepted (R347). -/
def Chip.holdsMsg (c : Chip) (xk : Nat) : Bool := (c.core (coreOf xk)).msgs.any fun m => m.xk == xk && m.held && !m.gone

/-! ### SEND, SENDN (R345) -/

/-- The name of a refused message enters the refused set, without an access to replay (R60, R171, R346). -/
def Ctx.refuseName (x : Ctx) (op code : Nat) (name : W64) : Ctx :=
  { x with replay := x.replay.filter (·.id < op) ++ [{ id := op, kind := .msg name, ctr := .none, refused := [⟨⟨op, 0, { va := name }⟩, code, 0, false⟩] }] ++
      x.replay.filter (op < ·.id) }
/-- The checks and the sending of a mailbox message. -/
def sendFate (e : Env) (c : Chip) (xk : Nat) (x : Ctx) (a b : BitVec 5) (sendn : Bool) (k : Chip → Fate) : Fate :=
  let name := x.getX a.toNat
  let ad := x.getX b.toNat
  let n := msgSize (nameSize name)
  if !nameOk name then .trap 0x01 name
  else match c.checkOwn xk ad n n with
    | some code => .trap code ad
    | none =>
      match x.lostOver ad n with
      | some h => c.takeLost xk h ad
      | none =>
        match c.emptyPiece xk [(0, ad, n)] with
        | some (off, n) => .wait c (.full off n)
        | none => c.sealed xk (
            if !c.muRoom (coreOf xk) name then .wait c (.msgRoom name)
            else k (c.post xk name (c.addrNode name.toNat) (.mbox (rdN e c (sram (coreOf xk) (ad.toNat % 2 ^ 18)) n)) sendn))
/-- SEND (R345). -/
def execSend (a b : BitVec 5) (s : State) : Host.Outcome State Fault Refusal :=
  run s fun e c => issue e c (.send a b) { x := [a.toNat, b.toNat], mem := true, ctr := .msg } fun e c xk x =>
    sendFate e c xk x a b false .retire
/-- SENDN (R345): it stays in STALL until the answer. -/
def execSendn (d a b : BitVec 5) (s : State) : Host.Outcome State Fault Refusal :=
  run s fun e c => issue e c (.sendn d a b) { x := [d.toNat, a.toNat, b.toNat], mem := true, ctr := .msg } fun e c xk x =>
    if x.pend.kind = .sendn then
      match x.pend.ans with
      | some (.value v _) => .retire (c.modCtx xk fun x => x.setX d.toNat v)
      | some (.refused code t) => .trap code t
      | none => .wait c .answer
    else sendFate e c xk x a b true fun c' => .wait (c'.modCtx xk fun x => { x with pend := { kind := .sendn, id := c.serial } }) .answer

/-! ### A message at its mailbox (R346, R353) -/

/-- The header of a message (R348). -/
def Chip.msgHeader (c : Chip) (m : Msg) : Nat := m.seq % 65536 * 2 ^ 32 + c.senderId m.src
/-- Bytes of a spill slot (R352). -/
def spillSlot (hdr : Nat) (p : List Byte) : List Byte :=
  let d := leBytes 8 hdr ++ leBytes 8 0 ++ p
  d ++ leBytes (256 - d.length) 0
/-- The address of a spill slot. -/
def Mbox.spillAt (b : Mbox) (i : Nat) : W64 := b.spillBase + w64 (256 * (i % 2 ^ b.spillLog))
/-- An IDLE of the core ends: a counter has been raised, or a message, task or host message accepted (R397). -/
def Chip.wakeIdle (c : Chip) (ck : Nat) : Chip :=
  (List.range 8).foldl (fun c n => match (c.ctx (ck * 8 + n)).wait with
    | .idle _ => c.modCtx (ck * 8 + n) fun x => { x with idleWake := true }
    | _ => c) c
/-- A payload enters the tail of the ring. -/
def Chip.ringPut (e : Env) (c : Chip) (ck mb hdr : Nat) (p : List Byte) : Chip :=
  let b := c.mbox ck mb
  (c.putSp e ck (b.ring + (b.headSlot + b.count) % (b.depthm1 + 1) * msgSize b.size) p).modMbox ck mb fun b =>
    { b with count := b.count + 1, hdrs := b.hdrs ++ [hdr] }
/-- The mailbox's answer to a message: the steps of R346, with the write of a stub's spill slot before the answer (R353). A message whose
spill slot lies in a page that its owner is giving back waits for it, before later ones of its pair (R173). -/
def mboxArrive (e : Env) (c : Chip) (m : Msg) (p : List Byte) : Chip :=
  let ck := nodeCore m.dst
  let mb := nameMb m.name
  let b := c.mbox ck mb
  let count (c : Chip) (on : Bool) : Chip := c.modMbox ck mb fun b => if on then { b with refcnt := b.refcnt + 1 } else b
  let good (c : Chip) : Chip := c.modMbox ck mb fun b => if m.reoffer then { b with refcnt := b.refcnt - 1 } else b
  if !b.en || b.unbinding || b.vi ≠ m.vi || b.type ≠ nameType m.name || b.size ≠ nameSize m.name then (good c).answerMsg m 2
  else if !m.reoffer && b.refcnt ≠ 0 then (count c !m.sendn).answerMsg m 1
  else if b.spill then
    let full := (count c (!m.reoffer && !m.sendn)).answerMsg m 1
    if 2 ^ b.spillLog ≤ b.spillCount then full
    else
      let (c', st, _) := writeGlobal e c false b.vi ck (b.spillAt (b.spillHead + b.spillCount)) (spillSlot (c.msgHeader m) p)
      if st = heldCode then { c' with net := ⟨if m.src / 2 ^ 25 ≠ 0 then bridgeNode else unitNode m.src, m.dst, .msg, e.now + 1, .messageArrival m⟩ :: c'.net }
      else if st ≠ 0 then full
      else (((good c').modMbox ck mb fun b => { b with spillCount := b.spillCount + 1 }).wakeIdle ck).answerMsg m 0
  else if b.depthm1 + 1 ≤ b.count then (count c (!m.reoffer && !m.sendn)).answerMsg m 1
  else (((good c).ringPut e ck mb (c.msgHeader m) p).wakeIdle ck).answerMsg m 0
/-- The queue that slot `n` of an interface shows: the n-th with its VI, in ascending number (R36). -/
def Chip.slotQueue (c : Chip) (vi n : Nat) : Option Nat := ((List.range 4096).filter fun q => (c.queue q).vi == vi)[n]?
/-- MESSAGE_ARRIVAL (R346, R361). -/
def execMessageArrival (m : Msg) (s : State) : Host.Outcome State Fault Refusal :=
  run s fun e c =>
    match m.body with
    | .mbox p => mboxArrive e c m p
    | .record slot v =>
      (match c.slotQueue m.vi slot with
       | some q => if (c.queue q).en then c.modQueue q fun k => { k with
            run := true, owed := k.owed ++ [{ opc := 6, status := 0, tag := c.senderId m.src, value := v, msg := some (m.src, m.id) }] } else c.answerMsg m 2
       | none => c.answerMsg m 2)
    | .task _ => c
/-- REOFFER (R347). -/
def execReoffer (m : Msg) (s : State) : Host.Outcome State Fault Refusal :=
  run s fun e c =>
    let l := c.unitMsgs m.src
    match l.find? (·.m.id == m.id) with
    | some y => if reofferable l y && decide (y.due ≤ e.now) then
        (c.modMsgs m.src (updFirst (·.m.id == m.id) fun y => { y with inflight := true })).sendMsg { m with reoffer := true } else c
    | none => c
/-- WITHDRAW (R347). -/
def execWithdraw (m : Msg) (s : State) : Host.Outcome State Fault Refusal :=
  run s fun _ c => match m.body with
    | .mbox _ => c.modMbox (nodeCore m.dst) (nameMb m.name) fun b => { b with refcnt := b.refcnt - 1 }
    | .task _ => c.modCore (nodeCore m.dst) fun k => { k with taskRef := k.taskRef - 1 }
    | .record .. => c
/-- The address that a refused message's fault names: the slot of an HMSG, the core address of a CALLAT, else the name (R60, R374). -/
def msgTval (m : Msg) : W64 :=
  if bit m.name.toNat 62 then w64 (bits m.name.toNat 0 12) else w64 (bits m.name.toNat 0 63)
/-- 256 cycles of the core whose unit holds a message; of a slice, as at ÷1 (R6, R347). -/
def msgDelay (c : Chip) (m : Msg) : Nat := if 2 ^ 24 ≤ m.src then retryTicks else c.coreTicks (coreOf m.src) retryTicks
/-- MESSAGE_ANSWER (R60, R345 to R347, R361): 0 accepted, 1 FULL, 2 MBTYPE, 3 no path remains. -/
def execMessageAnswer (m : Msg) (ans : Nat) (s : State) : Host.Outcome State Fault Refusal :=
  run s fun e c =>
    match (c.unitMsgs m.src).find? (·.m.id == m.id) with
    | none => c
    | some y =>
      let drop (c : Chip) : Chip := c.modMsgs m.src fun l => l.filter (·.m.id ≠ m.id)
      let ended (c : Chip) : Chip := if 2 ^ 24 ≤ m.src ∨ y.gone then c else c.modCtx y.xk fun x => (x.dropPart y.op y.op 0).settle y.op
      if ans = 1 && !m.sendn then
        if y.gone then ((drop c).withdrawMsg m).offerNext e.now m
        else (c.modMsgs m.src (updFirst (·.m.id == m.id) fun y => { y with held := true, inflight := false, due := e.now + msgDelay c m })).timer
          (e.now + msgDelay c m) (.reoffer { m with reoffer := true })
      else if m.sendn then
        ((if y.gone then drop c else (ended (drop c)).answer y.xk m.id (if ans = 3 then .refused 0x14 (msgTval m) else .value (w64 ans) e.now))).offerNext e.now m
      else
        let c := if 2 ≤ ans ∧ m.src < 2 ^ 24 ∧ !y.gone
          then (ended (drop c)).modCtx y.xk fun x => x.refuseName y.op (if ans = 2 then 0x0D else 0x14) (msgTval m) else ended (drop c)
        c.offerNext e.now m

/-! ### APIN, AUNPIN (R344, R351) -/

/-- A range of the own window lies in the context's run and meets no buffer, so it can become an actor area (R344). -/
def Chip.areaOk (c : Chip) (xk : Nat) (a : W64) (n : Nat) : Bool :=
  c.inRun xk a n && (c.ownOff xk a n).all fun off => !((c.core (coreOf xk)).bufs.any fun b => b.2.valid && meets off (off + n) b.2.base (b.2.base + b.2.len))
/-- APIN (R344). -/
def execApin (d a b : BitVec 5) (s : State) : Host.Outcome State Fault Refusal :=
  run s fun e c => issue e c (.apin d a b) { x := [d.toNat, a.toNat, b.toNat], mem := true } fun e c xk x =>
    let ck := coreOf xk
    let ad := x.getX b.toNat
    let pc := x.getX a.toNat
    match c.checkOwn xk ad 32 8 with
    | some code => .trap code ad
    | none => match x.lostOver ad 32 with
      | some h => c.takeLost xk h ad
      | none =>
      let blk := rdN e c (sram ck (ad.toNat % 2 ^ 18)) 32
      let img := wordAt blk 0
      let ring := w64 (wordAt blk 1)
      let st := w64 (wordAt blk 2)
      let stlen := wordAt blk 3
      let size := bits img 8 2
      let len := (bits img 24 6 + 1) * msgSize size
      if bits img 30 34 ≠ 0 ∨ bits img 10 14 ≠ 0 ∨ stlen % 128 ≠ 0 ∨ stlen < 128 ∨ 65536 < stlen ∨ pc.toNat % 4 ≠ 0 then .trap 0x01 ad
      else if ring.toNat % 128 ≠ 0 then .trap 0x05 ring
      else if st.toNat % 128 ≠ 0 then .trap 0x05 st
      else if !c.areaOk xk ring len then .trap 0x06 ring
      else if !c.areaOk xk st stlen then .trap 0x06 st
      else if meets ring.toNat (ring.toNat + len) st.toNat (st.toNat + stlen) then .trap 0x06 st
      else c.sealed xk (
        match (List.range 16).find? fun m => !(c.mbox ck m).en with
        | none => .retire (c.modCtx xk fun x => x.setX d.toNat 0)
        | some m =>
          let box : Mbox := { en := true, depthm1 := bits img 24 6, size := size, type := bits img 0 8, pc := pc, ring := ring.toNat % 2 ^ 18,
                              st := st.toNat % 2 ^ 18, stlen := stlen, vi := x.vi, area := true, frz := (c.mbox ck m).frz }
          .retire ((c.modMbox ck m fun _ => box).modCtx xk fun x => { x.setX d.toNat (mbName c.group ck m box) with
            left := [(box.ring, box.ring + len), (box.st, box.st + stlen)] ++ x.left }))
/-- AUNPIN (R351). -/
def execAunpin (a : BitVec 5) (s : State) : Host.Outcome State Fault Refusal :=
  run s fun e c => issue e c (.aunpin a) { x := [a.toNat] } fun _ c xk x =>
    let ck := coreOf xk
    let name := x.getX a.toNat
    let m := nameMb name
    let b := c.mbox ck m
    if !nameOk name || !b.en || b.vi ≠ x.vi || name ≠ mbName c.group ck m b then .trap 0x01 name
    else c.sealed xk (.retire ((c.modMbox ck m fun b => { b with unbinding := true }).tryUnbind ck m))

/-! ### Actor commands and replay (R352, R353) -/

/-- The part of a context's run whose granules it holds: a granule that an actor area took is the actor's (R78, R344). -/
def Ctx.granules (x : Ctx) : List (Nat × Nat) :=
  x.left.foldl (fun l r => cutRange (r.1 / 4096 * 4096) (upTo r.2 4096) l) [(x.runBase, x.runBase + x.runLen)]
/-- The runs and areas of a core's scratchpad that are taken: resident and placed work, saved contexts, reservations, actors
(R78, R391). -/
def Chip.takenRuns (c : Chip) (ck : Nat) : List (Nat × Nat) :=
  let k := c.core ck
  ((List.range 6).flatMap fun n => let x := c.ctx (ck * 8 + n); if x.st == .idle then [] else x.granules) ++ (k.saved.flatMap fun s => s.c.granules) ++
  ((c.vis.flatMap fun v => v.2.launches.flatMap fun l => l.units.flatMap fun u => u.copies.filter fun r =>
      coreOf r.xk == ck && r.st != .ended && r.st != .resident).map fun r => (r.base, r.base + r.len)) ++
  (k.mbs.flatMap fun p => p.2.areas)
/-- A granule of a core's scratchpad is free (R78, R344). -/
def Chip.granuleFree (c : Chip) (ck g : Nat) : Bool :=
  decide ((g + 1) * 4096 ≤ c.spSize ck) && !(c.takenRuns ck).any fun r => meets (g * 4096) (g * 4096 + 4096) r.1 r.2
/-- The command of a die's actor block ends with a status (R352). -/
def Chip.avDone (c : Chip) (die st : Nat) : Chip := c.modDie die fun d => { d with avstatus := st, avpend := 0 }
/-- The core that AVSEL names. -/
def Die.avCore (d : Die) (die : Nat) : Nat := die * 768 + bits d.avsel.toNat 4 10
/-- The mailbox that AVSEL names. -/
def Die.avMb (d : Die) : Nat := bits d.avsel.toNat 0 4
/-- FREEZE (R353). -/
def execFreeze (die : Nat) (s : State) : Host.Outcome State Fault Refusal :=
  run s fun _ c =>
    let d := c.die die
    if (c.mbox (d.avCore die) d.avMb).en then (c.modMbox (d.avCore die) d.avMb fun b => { b with frz := true }).avDone die 0 else c.avDone die 2
/-- THAW (R353). -/
def execThaw (die : Nat) (s : State) : Host.Outcome State Fault Refusal :=
  run s fun _ c =>
    let d := c.die die
    if (c.mbox (d.avCore die) d.avMb).en then (c.modMbox (d.avCore die) d.avMb fun b => { b with frz := false }).avDone die 0 else c.avDone die 2
/-- Pieces written in order by an engine: the package and the status of the first fault. -/
def writePieces (e : Env) (log : Bool) (vi ck : Nat) : Chip → List (W64 × List Byte) → Chip × Nat
  | c, [] => (c, 0)
  | c, (a, d) :: r =>
    let (c', st, _) := writeGlobal e c log vi ck a d
    if st ≠ 0 then (c', st) else writePieces e log vi ck c' r
/-- The mailbox as EVICT leaves it: a stub with its messages in the spill ring (R352, R353). -/
def Mbox.evicted (b : Mbox) (d : Die) : Mbox :=
  { b with spill := true, area := false, spillBase := w64 (d.avspill.toNat / 4096 * 4096 % 2 ^ 52), spillLog := bits d.avspill.toNat 0 5,
           spillHead := 0, spillCount := b.count, count := 0, hdrs := [], headSlot := 0 }
/-- What EVICT writes: the spill slots and the image of the actor (R353). -/
def evictPieces (e : Env) (c : Chip) (die : Nat) : List (W64 × List Byte) :=
  let d := c.die die
  let ck := d.avCore die
  let b := c.mbox ck d.avMb
  let out := b.evicted d
  let slots := (List.range b.count).map fun i => (out.spillAt i,
    spillSlot (b.hdrs.getD i 0) (rdN e c (sram ck (b.ring + (b.headSlot + i) % (b.depthm1 + 1) * msgSize b.size)) (msgSize b.size)))
  let img := leBytes 8 b.pc.toNat ++ leBytes 8 out.cfg.toNat ++ leBytes 8 b.stlen ++ leBytes 8 b.vi ++ leBytes 32 0 ++ rdN e c (sram ck b.st) b.stlen
  slots ++ [(d.avsave, img)]
/-- EVICT (R353); while its owner gives back a page that it writes, the command waits (R173). -/
def execEvict (die : Nat) (s : State) : Host.Outcome State Fault Refusal :=
  run s fun e c =>
    let d := c.die die
    let ck := d.avCore die
    let b := c.mbox ck d.avMb
    let lg := bits d.avspill.toNat 0 5
    if !b.en || !b.frz || b.spill || lg < 4 || 16 < lg then c.avDone die 2
    else if b.run then c.avDone die 1
    else if 2 ^ lg < b.count then c.avDone die 3
    else
      let (c', st) := writePieces e false b.vi ck c (evictPieces e c die)
      if st = heldCode then c'
      else if st ≠ 0 then c.avDone die 4
      else (c'.modMbox ck d.avMb fun _ => b.evicted d).avDone die 0
/-- RESTORE (R353); while its owner gives back a page that it reads, the command waits (R173). -/
def execRestore (die : Nat) (s : State) : Host.Outcome State Fault Refusal :=
  run s fun e c =>
    let d := c.die die
    let ck := d.avCore die
    let b := c.mbox ck d.avMb
    let off := bits d.avarea.toNat 0 18
    let st := off + upTo b.ringLen 128
    let top := st + b.stlen
    if !b.en || !b.spill || b.area || off % 128 ≠ 0 ||
        (List.range ((top + 4095) / 4096 - off / 4096)).any (fun i => !c.granuleFree ck (off / 4096 + i)) then c.avDone die 2
    else match readRow e c false b.vi ck (d.avsave + 64) b.stlen with
      | .error (c', st) => if st = heldCode then c' else c.avDone die 4
      | .ok (c', data) =>
        ((c'.putSp e ck st data).modMbox ck d.avMb fun b => { b with ring := off, st := st, area := true, headSlot := 0 }).avDone die 0
/-- RESUME of an actor (R353). -/
def execActorResume (die : Nat) (s : State) : Host.Outcome State Fault Refusal :=
  run s fun _ c =>
    let d := c.die die
    let ck := d.avCore die
    let b := c.mbox ck d.avMb
    if b.en && b.spill && b.area then (c.modMbox ck d.avMb fun b => { b with replaying := true, frz := false }).avDone die 0 else c.avDone die 2
/-- SPILL clears once the spill ring is empty (R353). -/
def Mbox.endReplay (b : Mbox) : Mbox := if b.replaying && b.spillCount == 0 then { b with spill := false, replaying := false } else b
/-- The replay of a mailbox has a step to make (R353). -/
def Mbox.canReplay (b : Mbox) : Bool := b.en && b.spill && b.replaying && (b.spillCount == 0 || decide (b.count < b.depthm1 + 1))
/-- SPILL_REPLAY (R353). -/
def execSpillReplay (ck mb : Nat) (s : State) : Host.Outcome State Fault Refusal :=
  run s fun e c =>
    let b := c.mbox ck mb
    if !b.canReplay then c
    else if b.spillCount = 0 then c.modMbox ck mb Mbox.endReplay
    else match readRow e c false b.vi ck (b.spillAt b.spillHead) 256 with
      | .error (c', st) => if st = heldCode then c'
          else (c.modMbox ck mb fun b => { b with replaying := false }).modDie (dieOf ck) fun d => { d with avstatus := 4 }
      | .ok (c', slot) =>
        (c'.ringPut e ck mb (wordAt slot 0) ((slot.drop 16).take (msgSize b.size))).modMbox ck mb fun b =>
          { b with spillHead := b.spillHead + 1, spillCount := b.spillCount - 1 }.endReplay

/-! ### Tasks and counters (R354 to R357) -/

/-- Fired tasks that wait in their entries enter the task queue while it has room (R357). -/
def Chip.pullFired (c : Chip) (ck : Nat) : Chip :=
  (List.range 32).foldl (fun c n =>
    let k := c.core ck
    let w := k.wt.get ({} : WTask) n
    let room := 8 - k.tasks.length
    if w.fired.isEmpty || room = 0 then c
    else c.modCore ck fun k => { k with tasks := k.tasks ++ w.fired.take room, wt := k.wt.put n { w with fired := w.fired.drop room } }) c
/-- An armed entry whose counter has reached its threshold fires (R357). -/
def Chip.fireEc (c : Chip) (ck n : Nat) : Chip :=
  let k := c.core ck
  let w := k.wt.get ({} : WTask) n
  let v := k.ec.get 0 n
  if w.armed && decide (w.thresh ≤ v) then
    let t : Task := { ck := ck, vi := w.vi, pc := w.pc, args := [w.a0, w.a1, w64 (v - w.thresh), w64 n] }
    (c.modCore ck fun k => { k with ec := k.ec.put n (v - w.thresh), wt := k.wt.put n { w with armed := false, fired := w.fired ++ [t] } }).pullFired ck
  else c
/-- EC`n` of a core is raised (R356). -/
def Chip.raiseEc (c : Chip) (ck n : Nat) : Chip :=
  ((c.wakeIdle ck).modCore ck fun k => { k with ec := k.ec.put n (Nat.min (k.ec.get 0 n + 1) (2 ^ 32 - 1)) }).fireEc ck n
/-- TASK: a task arrives at a core's queue (R354); a core that is OFF refuses it with MBTYPE (R405). -/
def execTaskArrive (m : Msg) (s : State) : Host.Outcome State Fault Refusal :=
  run s fun _ c =>
    match m.body with
    | .task t =>
      let ck := nodeCore m.dst
      let k := c.core ck
      if c.isOff ck then (c.modCore ck fun k => { k with taskRef := if m.reoffer then k.taskRef - 1 else k.taskRef }).answerMsg m 2
      else if !m.reoffer && k.taskRef ≠ 0 then (c.modCore ck fun k => { k with taskRef := k.taskRef + 1 }).answerMsg m 1
      else if 8 ≤ k.tasks.length then (c.modCore ck fun k => { k with taskRef := if m.reoffer then k.taskRef else k.taskRef + 1 }).answerMsg m 1
      else ((c.wakeIdle ck).modCore ck fun k => { k with tasks := k.tasks ++ [t], taskRef := if m.reoffer then k.taskRef - 1 else k.taskRef }).answerMsg m 0
    | _ => c
/-- TASK_START (R354). -/
def execTaskStart (ck : Nat) (s : State) : Host.Outcome State Fault Refusal :=
  run s fun _ c =>
    match (c.core ck).tasks, c.idleGeneral ck with
    | t :: r, some xk =>
      ((((c.modCore ck fun k => { k with tasks := r }).startWork xk .task t.vi t.pc (argRegs 14 t.args)).modCtx xk fun x => { x with task := some t })).pullFired ck
    | _, _ => c
/-- The reply that a task owes when it ends: 0 DONE, 1 cancelled, 2 ended by system software or failed (R355). -/
def Chip.taskReply (c : Chip) (xk status : Nat) : Chip :=
  let x := c.ctx xk
  match x.task with
  | some t =>
    if t.cell = 0 then c else
      let ev : Ev := .callatReply ⟨t.vi, t.caller⟩ t.cell ((List.range 4).map fun i => x.getX (14 + i)) status
      c.sendOut (coreNode (coreOf xk)) (c.addrNode t.caller) .msg ev
  | none => c
/-- Bytes of a core's scratchpad that another interface holds: a run, saved or not, a buffer or an actor area. A caller that let
the line of its cell go can reach none of them (R11, log 88). -/
def Chip.heldByOther (c : Chip) (ck vi off n : Nat) : Bool :=
  let k := c.core ck
  ((List.range 8).any fun i => let x := c.ctx (ck * 8 + i); x.st != .idle && x.vi != vi && x.ownsPart off n) ||
  k.saved.any (fun s => s.c.vi != vi && s.c.ownsPart off n) ||
  k.bufs.any (fun b => b.2.valid && b.2.vi != vi && meets off (off + n) b.2.base (b.2.base + b.2.len)) ||
  k.mbs.any fun b => b.2.vi != vi && b.2.areas.any fun r => meets off (off + n) r.1 r.2
/-- CALLAT_REPLY (R355): step 1 of R211, the line set full. -/
def execCallatReply (caller : Caller) (cell : W64) (args : List W64) (status : Nat) (s : State) : Host.Outcome State Fault Refusal :=
  run s fun e c =>
    let ck := addrCore caller.addr
    let off := cell.toNat % 2 ^ 18 / 128 * 128
    if c.isOff ck || c.heldByOther ck caller.vi off 128 then c
    else (c.putSp e ck off (args.flatMap (fun w => leBytes 8 w.toNat) ++ leBytes 8 status)).fillLines e.now ck off 128
/-- CALLAT (R355): x`d` names the reply cell and is not written. -/
def execCallat (d a b : BitVec 5) (s : State) : Host.Outcome State Fault Refusal :=
  run s fun e c => issue e c (.callat d a b) { x := [d.toNat, a.toNat, b.toNat, 16, 17, 18, 19], mem := true, ctr := .msg } fun _ c xk x =>
    let tgt := x.getX a.toNat
    let pc := x.getX b.toNat
    let cell := x.getX d.toNat
    if bits tgt.toNat 17 47 ≠ 0 ∨ 768 ≤ bits tgt.toNat 0 10 then .trap 0x01 tgt
    else if pc.toNat % 4 ≠ 0 then .trap 0x03 pc
    else match (if d.toNat = 0 then none else c.checkOwn xk cell 128 128) with
      | some code => .trap code cell
      | none =>
        match (if d.toNat = 0 then none else x.lostOver cell 128) with
        | some h => c.takeLost xk h cell
        | none => c.sealed xk (
          let name := w64 (2 ^ 63 + tgt.toNat)
          if !c.muRoom (coreOf xk) name then .wait c (.msgRoom name)
          else
            let c := if d.toNat = 0 then c else c.modCore (coreOf xk) fun k => k.setEmpty (cell.toNat % 2 ^ 18) 128
            let me := ctxId c.group xk
            let cl := if d.toNat = 0 then 0 else cell
            let t : Task := { ck := addrCore tgt.toNat, vi := x.vi, pc := pc, caller := me, cell := cl,
                              args := [x.getX 16, x.getX 17, x.getX 18, x.getX 19, w64 me, cl] }
            .retire (c.post xk name (c.addrNode tgt.toNat) (.task t) false))
/-- RWI (R356). -/
def execRwi (a b : BitVec 5) (s : State) : Host.Outcome State Fault Refusal :=
  run s fun e c => issue e c (.rwi a b) { x := [a.toNat, b.toNat], mem := true, ctr := .msg } fun e c xk x =>
    let v := x.getX a.toNat
    let n := bits v.toNat 18 5
    let ad := w64 (v.toNat - n * 2 ^ 18)
    let d := leBytes 8 (x.getX b.toNat).toNat
    if isGlobal ad then .trap 0x09 ad
    else accessFate c xk x 8 [(0, ad, 8)] (c.sealed xk (
      match c.ownOff xk ad 8 with
      | some off => .retire (((c.putSp e (coreOf xk) off d).raiseEc (coreOf xk) n).modCtx xk fun x => { x with vismax := max x.vismax e.now })
      | none =>
        let q : Req := { src := xk, op := c.serial, part := c.serial + 1, vi := x.vi, act := .rwi n, va := ad, n := 8, data := d }
        .retire ((c.next.next.addOp xk { id := q.op, kind := .store, ctr := .msg, parts := [⟨q.part, 0, q⟩] }).request q)))
/-- RWI_ARRIVAL (R356): the word and the counter in one step. -/
def execRwiArrival (q : Req) (s : State) : Host.Outcome State Fault Refusal :=
  run s fun e c =>
    let ck := nodeCore q.home
    match c.remoteOk q 8, q.act with
    | some code, _ => c.refuse q.home q code 0
    | none, .rwi n => ((c.putSp e ck (q.pa - sram ck 0) q.data).raiseEc ck n).send q.home (reqFrom q) .rsp (.storeAck q e.now)
    | none, _ => c
/-- ARM (R357). -/
def execArm (d a b : BitVec 5) (s : State) : Host.Outcome State Fault Refusal :=
  run s fun e c => issue e c (.arm d a b) { x := [d.toNat, a.toNat, b.toNat], mem := true } fun e c xk x =>
    let ck := coreOf xk
    let n := (x.getX a.toNat).toNat
    let ad := x.getX b.toNat
    if 32 ≤ n then .trap 0x01 (x.getX a.toNat)
    else match c.checkOwn xk ad 32 8 with
      | some code => .trap code ad
      | none => match x.lostOver ad 32 with
        | some h => c.takeLost xk h ad
        | none =>
        let blk := rdN e c (sram ck (ad.toNat % 2 ^ 18)) 32
        let w3 := wordAt blk 3
        let t := (c.core ck).wt.get ({} : WTask) n
        if bits w3 33 31 ≠ 0 ∨ bits w3 0 32 = 0 then .trap 0x01 ad
        else if t.armed && t.vi ≠ x.vi then .trap 0x09 (w64 n)
        else c.sealed xk (
          let c := c.modCore ck fun k => { k with
            ec := if bit w3 32 then k.ec.put n 0 else k.ec,
            wt := k.wt.put n { t with armed := true, vi := x.vi, pc := w64 (wordAt blk 0), a0 := w64 (wordAt blk 1), a1 := w64 (wordAt blk 2), thresh := bits w3 0 32 } }
          .retire ((c.modCtx xk fun x => x.setX d.toNat (w64 ((c.core ck).ec.get 0 n))).fireEc ck n))
/-- DISARM (R357). -/
def execDisarm (a : BitVec 5) (s : State) : Host.Outcome State Fault Refusal :=
  run s fun e c => issue e c (.disarm a) { x := [a.toNat] } fun _ c xk x =>
    let n := (x.getX a.toNat).toNat % 32
    c.sealed xk (.retire (c.modCore (coreOf xk) fun k =>
      let t := k.wt.get ({} : WTask) n
      { k with wt := k.wt.put n { t with armed := t.armed && t.vi ≠ x.vi, fired := t.fired.filter (·.vi ≠ x.vi) } }))

/-! ### Watchpoints (R358 to R360) -/

/-- WATCH and REWATCH: the checks, the request, the reply. -/
def watch (i : Instr) (re : Bool) (d a b : BitVec 5) (s : State) : Host.Outcome State Fault Refusal :=
  run s fun e c => issue e c i { x := [d.toNat, a.toNat, b.toNat], mem := true } fun e c xk x =>
    let ck := coreOf xk
    let va := x.getX a.toNat
    let ad := x.getX b.toNat
    if x.pend.kind = .watch then
      match x.pend.ans with
      | some (.value v _) => .retire (c.modCtx xk fun x => x.setX d.toNat v)
      | some (.refused code _) => c.answered xk code va
      | none => .wait c .answer
    else if !isGlobal va then .trap 0x09 va
    else if va.toNat % 8 ≠ 0 then .trap 0x05 va
    else match c.checkOwn xk ad 32 8 with
      | some code => .trap code ad
      | none => match (x.lostOver va 8).map (fun h => (h, va)) <|> (x.lostOver ad 32).map (fun h => (h, ad)) with
        | some (h, t) => c.takeLost xk h t
        | none =>
        let blk := rdN e c (sram ck (ad.toNat % 2 ^ 18)) 32
        let w3 := wordAt blk 3
        if 16 ≤ w3 ∨ va.toNat % 128 + 8 * (w3 + 1) > 128 then .trap 0x01 va
        else c.sealed xk (
          let q : Req := { src := xk, part := c.serial, vi := x.vi, va := va, n := 8,
                           act := .watch re (w64 (wordAt blk 0)) (w64 (wordAt blk 1)) (w64 (wordAt blk 2)) w3 }
          let home := c.homeOf e q
          if c.amoFull ck home then .wait c (.amoRoom home)
          else .wait ((c.next.modCtx xk fun x => { x with pend := { kind := .watch, id := c.serial } }).amoSend e home q) .answer)
/-- WATCH (R358). -/
def execWatch (d a b : BitVec 5) (s : State) : Host.Outcome State Fault Refusal := watch (.watch d a b) false d a b s
/-- REWATCH (R360). -/
def execRewatch (d a b : BitVec 5) (s : State) : Host.Outcome State Fault Refusal := watch (.rewatch d a b) true d a b s
/-- WATCH_REQUEST (R358, R360): a binding is installed in one step; a slice without a free one refuses. -/
def execWatchRequest (q : Req) (s : State) : Host.Outcome State Fault Refusal :=
  run s fun e c =>
    match q.act with
    | .watch re pc a0 mask len =>
      let h := c.home q.home
      let mine (w : Watch) : Bool := w.vi == q.vi && w.ck == coreOf q.src && w.va == q.va
      let old := h.watches.find? mine
      let live := old.any (·.live)
      if !live && 64 ≤ (h.watches.filter (·.live)).length then c.send q.home (reqFrom q) .rsp (.watchRetry q) (e.now + c.reqTicks q retryTicks)
      else
        let gen := ((old.map (·.gen)).getD 0 + 1) % 65536
        let v := if re then w64 (gen * 65536 + (if live then 0 else if old.isSome then 1 else 2))
                 else w64 (leNat (c.homeRead e q.vi q.pa 8))
        let new : Watch := { vi := q.vi, ck := coreOf q.src, va := q.va, pa := q.pa, len := len, mask := mask, pc := pc, a0 := a0, gen := gen, live := true }
        (c.modHome q.home fun h => { h with watches := new :: h.watches.filter (fun w => !mine w) }).send q.home (reqFrom q) .rsp (.loadReply q (leBytes 8 v.toNat) [] 0)
    | _ => c
/-- WATCH_RETRY (R358): the request is sent again after 256 cycles, unless its context waits no longer. -/
def execWatchRetry (q : Req) (s : State) : Host.Outcome State Fault Refusal :=
  run s fun _ c =>
    if (c.ctx q.src).pend.id ≠ q.part then c.amoDone (coreOf q.src) q.part
    else c.request { q with home := 0, pa := 0 }

/-! ### HMSG (R361) -/

/-- HMSG (R361). -/
def execHmsg (a b : BitVec 5) (s : State) : Host.Outcome State Fault Refusal :=
  run s fun e c => issue e c (.hmsg a b) { x := [a.toNat, b.toNat], ctr := .msg } fun _ c xk x =>
    let slot := x.getX a.toNat
    if 4096 ≤ slot.toNat then .trap 0x01 (w64 (encode (.hmsg a b)).toNat)
    else c.sealed xk (
      let name := w64 (2 ^ 62 + slot.toNat)
      if !c.muRoom (coreOf xk) name then .wait c (.msgRoom name)
      else .retire (c.post xk name (match c.slotQueue x.vi slot.toNat with | some q => dispNode (q / 512) | none => viNode x.vi)
        (.record slot.toNat (x.getX b.toNat)) false))

/-! ### Handler runs (R68, R69, R348 to R350) -/

/-- A mailbox is ready (R348). -/
def Mbox.ready (b : Mbox) : Bool := b.en && decide (0 < b.count) && !b.run && !b.frz && !b.spill
/-- The ready mailbox that is served next, round-robin (R348). -/
def Core.nextMbox (k : Core) : Option Nat :=
  ((List.range 16).map fun i => (k.rrMb + 1 + i) % 16).find? fun m => (k.mbs.get ({} : Mbox) m).ready
/-- A handler context whose repair has reached its time (R298). -/
def Chip.repairDue (c : Chip) (now ck : Nat) : Option (Nat × Req) :=
  [ck * 8 + 6, ck * 8 + 7].findSome? fun xk => ((c.ctx xk).repair.filter fun q => match q.act with | .strel _ t => decide (t ≤ now) | _ => true).map fun q => (xk, q)
/-- A handler context takes up the repair of an STREL, which no budget and no stop ends (R298). -/
def Chip.startRepair (c : Chip) (xk : Nat) (q : Req) : Chip :=
  c.setCtx xk { st := .stall, kind := .handler, vi := q.vi, noBudget := true, repair := some q, stamp := (c.ctx xk).stamp + 1 }
/-- HANDLER_RUN_START (R68, R298, R304, R348): a repair whose time has come ends, and its context is free; else the next work starts: of
the handler queue, then a repair, then of a mailbox (log 104). -/
def execHandlerRunStart (ck : Nat) (s : State) : Host.Outcome State Fault Refusal :=
  run s fun e c =>
    let k := c.core ck
    match c.repairDue e.now ck with
    | some (xk, q) => ((c.count q.vi fun n => { n with scopemiss := n.scopemiss + 1 }).request q).fallIdle xk
    | none =>
    match c.idleHandler ck with
    | none => c
    | some xk =>
      match k.hq with
      | w :: r =>
        let c := c.modCore ck fun k => { k with hq := r }
        (match w with
         | .msg m => c.startHandler e xk m.vi m.pc (argRegs 14 m.args ++ [(18, m.sender)]) none
         | .atomic q => atomicAt e c q)
      | [] =>
        match k.repairs, k.nextMbox with
        | q :: r, _ => (c.modCore ck fun k => { k with repairs := r }).startRepair xk q
        | [], none => c
        | [], some mb =>
          let b := c.mbox ck mb
          ((c.modMbox ck mb fun b => { b with run := true }).modCore ck fun k => { k with rrMb := mb }).startHandler e xk b.vi b.pc
            [(14, windowAddr ck (b.ring + b.headSlot * msgSize b.size)), (15, w64 (b.hdrs.headD 0)), (16, windowAddr ck b.st), (17, mbName c.group ck mb b)] (some mb)
/-- A run on a mailbox ends: by DONE its message is removed; otherwise it stays (R349, R351, R372). -/
def Chip.runDone (c : Chip) (xk : Nat) (remove : Bool) : Chip :=
  let ck := coreOf xk
  match (c.ctx xk).mbox with
  | none => c
  | some mb =>
    if (c.mbox ck mb).vi ≠ (c.ctx xk).vi then c else
    (c.modMbox ck mb fun b => if remove then
        { b with run := false, count := b.count - 1, hdrs := b.hdrs.tail, headSlot := (b.headSlot + 1) % (b.depthm1 + 1) }
      else { b with run := false }).tryUnbind ck mb
/-- The source in the list of flights of a handler message that its sender holds: a pair of its own (R68). -/
def handFrom (m : HandMsg) : Nat := 2 ^ 20 + m.sender.toNat % 2 ^ 17
/-- 256 cycles of the core that sends a handler message; of a core on another device, as at ÷1 (R6, R68). -/
def handDelay (c : Chip) (m : HandMsg) : Nat :=
  if bits m.sender.toNat 13 4 = c.group % 16 then c.coreTicks (addrCore m.sender.toNat) retryTicks else retryTicks
/-- HANDLER_MESSAGE (R68): it starts, queues, or is refused, as by a core that is OFF (R405, log 63). Its sender then holds it and
offers it again after 256 cycles, and later ones of the pair are refused until it is accepted. -/
def execHandlerMessage (m : HandMsg) (s : State) : Host.Outcome State Fault Refusal :=
  run s fun e c =>
    let hold : Flight := ⟨handFrom m, coreNode m.ck, .msg, e.now + handDelay c m, .handlerMessage { m with again := true }⟩
    if !m.again && c.net.any fun f => f.src == handFrom m && f.dst == coreNode m.ck then { c with net := c.net ++ [hold] }
    else if c.isOff m.ck then { c with net := hold :: c.net }
    else match c.idleHandler m.ck, (c.core m.ck).hq.isEmpty with
      | some xk, true => c.startHandler e xk m.vi m.pc (argRegs 14 m.args ++ [(18, m.sender)]) none
      | _, _ => if (c.core m.ck).hq.length < 16 then c.modCore m.ck fun k => { k with hq := k.hq ++ [.msg m] }
                else { c with net := hold :: c.net }
/-- HBUDGET (R350, R375). -/
def execHbudget (xk : Nat) (s : State) : Host.Outcome State Fault Refusal :=
  run s fun e c => c.modCtx xk fun x =>
    if x.budgetSpent e.now then ({ x with noBudget := true }.take true 0x0E x.pc 0).stopIfAsked e.now else x

end Sys2Proof.Machine
end

