-- ==== Sys2Proof/Machine/Retire.lean ====
section
/-! DEFINITION. What the dispatchers keep: units and their copies, launches, levels, completion records owed, the cancelling
of a level, the hedging budget and the histograms (R13, R17, R50, R51, R56, R85, R89, R95, R99, R102, R103, R435, R440 to R443). -/
namespace Sys2Proof.Machine
open Sys2Proof

/-! ### Histograms (R95, R96) -/

/-- The bucket of a value. -/
def bucket (v : Nat) : Nat := if v = 0 then 0 else Nat.min 31 (Nat.log2 v + 1)
/-- The lower bound of a bucket. -/
def lower (b : Nat) : Nat := if b = 0 then 0 else 2 ^ (b - 1)
/-- The midpoint of a bucket. -/
def midpoint (b : Nat) : Nat := if b = 0 then 0 else if b = 1 then 1 else 3 * 2 ^ (b - 2)
/-- The sum of a histogram's counts. -/
def histSum (h : List Nat) : Nat := h.foldl (· + ·) 0
/-- A count is recorded; every count is halved first when the sum would reach 65,536. -/
def histAdd (h : List Nat) (v : Nat) : List Nat :=
  let h := if histSum h + 1 = 65536 then h.map (· / 2) else h
  (List.range 32).map fun b => h.getD b 0 + (if b = bucket v then 1 else 0)
/-- The q-quantile bucket. -/
def quantile (h : List Nat) (q : Nat) : Nat :=
  ((List.range 32).find? fun b => decide (q * histSum h ≤ 1024 * histSum (h.take (b + 1)))).getD 31
/-- The entry of a pair in a cluster's monitor, or a new one. -/
def classOf (m : List ClassE) (vi hclass now : Nat) : ClassE :=
  (m.find? fun x => x.vi == vi && x.hclass == hclass).getD { vi := vi, hclass := hclass, rate := [], total := [], last := now }
/-- The entry put back; the entry longest without a sample, the first of several, makes room for a new one when 128 are in use (log 99). -/
def putClass (m : List ClassE) (x : ClassE) : List ClassE :=
  let rest := m.filter fun y => !(y.vi == x.vi && y.hclass == x.hclass)
  let rest := if 128 ≤ rest.length then
      match rest.foldl (fun (a : Option ClassE) y => match a with | none => some y | some b => if y.last < b.last then some y else a) none with
      | some o => rest.filter (· != o)
      | none => rest
    else rest
  rest ++ [x]
/-- The monitor of a cluster. -/
def Chip.mon (c : Chip) (cl : Nat) : List ClassE := c.mons.get [] cl
/-- The cluster of a context. -/
def clusterKey (xk : Nat) : Nat := dieOf (coreOf xk) * 4 + clusOf (coreOf xk)
/-- A winning retirement is recorded in the total histogram of the winner's cluster. -/
def Chip.recordTotal (e : Env) (c : Chip) (xk vi hclass work : Nat) : Chip :=
  let x := classOf (c.mon (clusterKey xk)) vi hclass e.now
  { c with mons := c.mons.put (clusterKey xk) (putClass (c.mon (clusterKey xk)) { x with total := histAdd x.total work }) }

/-! ### Records of units (R19, R89) -/

/-- Units of a launch (R16). -/
def Launch.total (l : Launch) : Nat := (l.gx + 1) * (l.gy + 1) * (l.gz + 1)
/-- The copy has not ended. -/
def CopyRec.live (r : CopyRec) : Bool := r.st != .ended
/-- Coordinate x of a unit (R16). -/
def Launch.ux (l : Launch) (i : Nat) : Nat := i % (l.gx + 1)
/-- Coordinate y of a unit. -/
def Launch.uy (l : Launch) (i : Nat) : Nat := i / (l.gx + 1) % (l.gy + 1)
/-- Coordinate z of a unit. -/
def Launch.uz (l : Launch) (i : Nat) : Nat := i / (l.gx + 1) / (l.gy + 1)
/-- RESOFF of a snapshot (R19). -/
def UnitRec.resoff (u : UnitRec) : Nat := field u.snap 128 32
/-- The unit has a result tile (R432). -/
def UnitRec.hedged (u : UnitRec) : Bool := u.resoff != 0xFFFFFFFF
/-- HCLASS of a snapshot. -/
def UnitRec.hclass (u : UnitRec) : Nat := field u.snap 120 8
/-- GANG of a snapshot. -/
def UnitRec.gang (u : UnitRec) : Bool := field u.snap 116 1 == 1
/-- NOHEDGE of a snapshot. -/
def UnitRec.nohedge (u : UnitRec) : Bool := field u.snap 115 1 == 1
/-- The launch, unit and live copy that a reference and a context name. -/
def Vi.findCopy (v : Vi) (u : URef) (xk : Nat) : Option (Launch × UnitRec × CopyRec) :=
  v.launches.findSome? fun l => if l.lid ≠ u.lid then none else
    (l.units.find? (·.idx == u.idx)).bind fun n => (n.copies.find? fun r => r.copy == u.copy && r.xk == xk && r.live).map fun r => (l, n, r)
/-- The launch and unit that a reference names, while some copy of it lives or it waits for one. -/
def Vi.findUnit (v : Vi) (u : URef) : Option (Launch × UnitRec) :=
  v.launches.findSome? fun l => if l.lid ≠ u.lid || l.st == .complete then none else (l.units.find? (·.idx == u.idx)).map fun n => (l, n)
/-- The context of the live copy that a reference names. -/
def Vi.ctxOf (v : Vi) (u : URef) : Option Nat :=
  v.launches.findSome? fun l => if l.lid ≠ u.lid then none else
    (l.units.find? (·.idx == u.idx)).bind fun n => (n.copies.find? fun r => r.copy == u.copy && r.live).map (·.xk)
/-- A launch changed. -/
def Chip.modLaunch (c : Chip) (vi order : Nat) (f : Launch → Launch) : Chip :=
  c.modVi vi fun v => { v with launches := updFirst (·.order == order) f v.launches }
/-- A launch by its place in the order of acceptance. -/
def Chip.launch? (c : Chip) (vi order : Nat) : Option Launch := (c.vi vi).launches.find? (·.order == order)
/-- A unit changed. -/
def Chip.modUnit (c : Chip) (vi order idx : Nat) (f : UnitRec → UnitRec) : Chip :=
  c.modLaunch vi order fun l => { l with units := updFirst (·.idx == idx) f l.units }
/-- A copy of a unit changed. -/
def Chip.modCopyRec (c : Chip) (vi order idx copy : Nat) (f : CopyRec → CopyRec) : Chip :=
  c.modUnit vi order idx fun u => { u with copies := updFirst (·.copy == copy) f u.copies }

/-! ### The hedging budget (R99, R102, R103) -/

/-- A refund (R99). -/
def Chip.refund (c : Chip) (vi est : Nat) : Chip := c.modVi vi fun v => { v with level := min (v.cap : Int) (v.level + est), budgetBusy := true }
/-- The requests of a unit that wait in a dispatcher end, with their estimates refunded (R99, R435). -/
def Chip.dropBackups (c : Chip) (vi lid idx : Nat) : Chip :=
  let mine (b : BReq) : Bool := b.u.vi == vi && b.u.lid == lid && b.u.idx == idx
  (c.dies.flatMap fun p => p.2.backups.filter mine).foldl (fun c b => c.refund vi b.est)
    { c with dies := c.dies.map fun p => (p.1, { p.2 with backups := p.2.backups.filter fun b => !mine b }) }
/-- The launch of another device's unit at the device that runs its backup: named apart from every launch of its own (log 87). -/
def guestLid (origin lid : Nat) : Nat := (origin + 1) * 2 ^ 32 + lid
/-- A note about a backup leaves for another device (R98, log 87). -/
def Chip.noteTo (c : Chip) (dev : Nat) (b : BReq) : Chip := { c with outbox := c.outbox ++ [(extDevice dev, .backupRequest b)] }
/-- The granted request of a unit that waits on another device is withdrawn and refunded (R99). -/
def Chip.dropDevReq (c : Chip) (vi order idx : Nat) : Chip :=
  match ((c.launch? vi order).bind fun l => l.units.find? (·.idx == idx)).bind (·.devReq) with
  | none => c
  | some b =>
    ((c.refund vi b.est).modUnit vi order idx fun u => { u with sumE := u.sumE - b.est, granted := false, devReq := none }).noteTo
      (b.job.elim 0 (·.peer)) { b with note := .withdraw }
/-- The requests of a unit that wait end, and their estimates leave the sum of granted ones (R99, R103). -/
def Chip.dropUnitBackups (c : Chip) (vi order lid idx : Nat) : Chip :=
  let e := (c.dies.flatMap fun p => p.2.backups.filter fun b => b.u.vi == vi && b.u.lid == lid && b.u.idx == idx).foldl (fun n b => n + b.est) 0
  ((c.dropBackups vi lid idx).modUnit vi order idx fun u => { u with sumE := u.sumE - e, granted := u.granted && e == 0 }).dropDevReq vi order idx
/-- The span of a copy that became resident (R103). -/
def CopyRec.span (r : CopyRec) (t0 : Nat) : Nat := if r.start = 0 then 0 else r.stop - max t0 r.start
/-- The charge of R103. -/
def UnitRec.charge (u : UnitRec) : Nat :=
  match u.t0 with
  | none => 0
  | some t0 =>
    let sum (l : List CopyRec) : Nat := l.foldl (fun n r => n + r.span t0) 0
    let won : Bool := match u.res with | some .won | some .void => true | _ => false
    if won then sum (u.copies.filter fun r => u.winner != some r.copy) else sum (u.copies.filter (·.copy ≠ 0))
/-- Once the last copy of a unit with backups has ended, the budget is reconciled (R103). -/
def Chip.reconcile (c : Chip) (vi order idx : Nat) : Chip :=
  match (c.launch? vi order).bind fun l => l.units.find? (·.idx == idx) with
  | none => c
  | some u =>
    if u.nback = 0 || u.settled || u.copies.any (·.live) || u.res.isNone then c
    else (c.modVi vi fun v => { v with level := min (v.cap : Int) (v.level + u.sumE - u.charge), budgetBusy := true }).modUnit vi order idx fun u => { u with settled := true }

/-! ### Queue records (R41, R55, R56) -/

/-- A record is due for the entry. -/
def Entry.owes (x : Entry) : Bool := match x with | .launch _ _ _ c | .level _ _ _ c | .cancel _ _ _ c | .hmsg _ _ c => c
/-- RUN: the engine serves the queue or owes it records, that of a fence among them (R38, R41, R52). -/
def Queue.settleRun (q : Queue) : Queue :=
  { q with run := q.en || !q.owed.isEmpty || q.open_.any (·.2.owes) || q.hm.isSome || q.fence.any (·.2) }
/-- Entries taken for an interface complete: `f` gives for each that does the record that it owes. `vis` and `stores`: what the
release of R57 over their work waits for. -/
def Chip.settleEntries (c : Chip) (vi vis : Nat) (stores : List Nat) (f : Entry → Option (Option Owed)) : Chip :=
  { c with queues := c.queues.map fun p =>
      let done (x : Nat × Entry) : Bool := x.1 == vi && (f x.2).isSome
      let rec_ (x : Nat × Entry) : Option Owed := if x.1 = vi then ((f x.2).bind id).map fun o => { o with at_ := vis, stores := stores } else none
      if p.2.open_.any done then
        (p.1, { p.2 with open_ := p.2.open_.filter (fun x => !done x), owed := p.2.owed ++ p.2.open_.filterMap rec_,
                         vis := max p.2.vis vis, stores := p.2.stores ++ stores }.settleRun)
      else p }
/-- The status of a launch or level in its record (R56). -/
def recStatus (cancelled fail : Bool) : Nat := if cancelled then 0x30 else if fail then 0x31 else 0

/-! ### Completion of launches and levels (R13, R17, R51, R443) -/

/-- One more level of the interface completes: the levels completed before it age, and after 4,096 are forgotten (R51). -/
def Vi.age (v : Vi) : Vi :=
  { v with
    launches := v.launches.map fun l => if l.st == .complete && l.remembered then { l with later := l.later + 1, remembered := decide (l.later + 1 < 4096) } else l
    levels := (v.levels.map fun l => if l.complete then { l with later := l.later + 1 } else l).filter fun l => !(l.complete && decide (4096 ≤ l.later)) }
/-- A level that is closed and whose members are complete completes (R13, R56). -/
def Chip.tryLevel (c : Chip) (vi kind id : Nat) : Chip :=
  match (c.vi vi).levels.find? fun l => l.kind == kind && l.id == id && !l.complete with
  | none => c
  | some l =>
    if l.closed && l.done == l.members then
      let c := c.modVi vi Vi.age
      let c := c.modVi vi fun v => { v with levels := updFirst (fun l => l.kind == kind && l.id == id && !l.complete) (fun l => { l with complete := true }) v.levels }
      c.settleEntries vi l.vis l.stores fun x => match x with
        | .level k i tag cpl => if k = kind ∧ i = id then some (if cpl then some { opc := 2, status := recStatus l.cancelled l.fail, tag := tag, value := w64 id } else none) else none
        | .cancel k i tag cpl => if k = kind ∧ i = id then some (if cpl then some { opc := 3, status := 0, tag := tag, value := w64 id } else none) else none
        | _ => none
    else c
/-- The levels that a launch belongs to: graph, phase, job. -/
def Launch.levels (l : Launch) : List (Nat × Nat) := [(1, l.graph), (2, l.phase), (3, l.job)].filter fun p => p.2 ≠ 0
/-- The predecessor of that name that a launch means: the latest of its graph accepted before it (R17). -/
def Vi.pred (v : Vi) (l : Launch) (lid : Nat) : Option Launch :=
  (v.launches.filter fun p => p.lid == lid && p.graph == l.graph && decide (p.order < l.order)).foldl
    (fun (a : Option Launch) p => match a with | none => some p | some b => if b.order < p.order then some p else a) none
/-- Every predecessor is complete (R17). -/
def Vi.predsDone (v : Vi) (l : Launch) : Bool := l.preds.all fun p => (v.pred l p).all fun q => q.st == .complete
/-- A launch whose units have all retired completes (R13, R85, R443). -/
def Chip.tryLaunch (c : Chip) (vi order : Nat) : Chip :=
  match c.launch? vi order with
  | none => c
  | some l =>
    if l.st == .complete || decide (l.retired < l.total) then c
    else
      let c := if l.lid < 2 ^ 32 then c.modVi vi Vi.age else c
      let c := c.modLaunch vi order fun l => { l with st := .complete }
      let c := c.settleEntries vi l.vis l.stores fun x => match x with
        | .launch o lid tag cpl => if o = order then some (if cpl then some { opc := 1, status := recStatus l.cancelled l.fail, tag := tag, value := w64 lid } else none) else none
        | .cancel k i tag cpl => if k = 0 ∧ i = l.lid then some (if cpl then some { opc := 3, status := 0, tag := tag, value := w64 i } else none) else none
        | _ => none
      let more (y : Level) : Level := { y with done := y.done + 1, fail := y.fail || l.fail, vis := max y.vis l.vis, stores := y.stores ++ l.stores }
      let c := l.levels.foldl (fun c p => (c.modVi vi fun v => { v with levels := updFirst (fun y => y.kind == p.1 && y.id == p.2 && !y.complete) more v.levels }).tryLevel vi p.1 p.2) c
      c.modVi vi fun v => { v with launches := v.launches.map fun m => if m.st == .blocked && v.predsDone m then { m with st := .eligible } else m }
/-- A unit of a launch has failed: so have the live levels above it (R443, R450). -/
def Chip.failLevels (c : Chip) (vi order : Nat) : Chip :=
  match c.launch? vi order with
  | none => c
  | some l => c.modVi vi fun v =>
      { v with levels := v.levels.map fun y => if !y.complete && l.levels.contains (y.kind, y.id) then { y with fail := true } else y }
/-- `n` more units of a launch have retired. -/
def Chip.unitsRetired (c : Chip) (vi order n : Nat) (fail : Bool) (vis : Nat) : Chip :=
  let c := c.modLaunch vi order fun l => { l with retired := l.retired + n, fail := l.fail || fail, vis := max l.vis vis }
  (if fail then c.failLevels vi order else c).tryLaunch vi order
/-- The stores of a copy that ends while they are out, and the releases of its pins, join its launch (R57, R152). -/
def Chip.orphan (c : Chip) (u : URef) (xk : Nat) (stores : List Nat) : Chip :=
  match (c.vi u.vi).findCopy u xk with
  | some (l, _, _) => c.modLaunch u.vi l.order fun l => { l with stores := l.stores ++ stores }
  | none => c
/-- A unit retires, once (R441, R443, R444). -/
def Chip.retireUnit (c : Chip) (vi order idx : Nat) (res : URes) (vis : Nat) : Chip :=
  match (c.launch? vi order).bind fun l => (l.units.find? (·.idx == idx)).map fun u => (l, u) with
  | none => c
  | some (l, u) =>
    if u.res.isSome then c
    else
      let c := c.modUnit vi order idx fun u => { u with res := some res }
      let c := match res with
        | .won | .void => c.count vi fun k => { k with uwon := k.uwon + 1 }
        | .failed code => c.count vi fun k => { k with ufail := k.ufail + 1, lastfail := w64 (l.lid * 2 ^ 32 + idx % 2 ^ 24 * 2 ^ 8 + code) }
        | .cancelled => c
      ((c.dropUnitBackups vi order l.lid idx).reconcile vi order idx).unitsRetired vi order 1 (match res with | .failed _ => true | _ => false) vis

/-! ### The end of a copy (R89, R98, R441) -/

/-- The record of another device's unit whose backup is to be placed here: a launch of this one unit (R98, log 87). -/
def guestLaunch (b : BReq) (j : BackJob) (now order : Nat) : Launch :=
  { vi := b.u.vi, lid := guestLid j.origin (b.u.lid % 2 ^ 32), graph := 0, phase := 0, job := 0, geom := j.geom, tilebase := j.tilebase, udbase := j.udbase,
    codebase := j.codebase, preds := [], prio := j.prio, spkib := j.spkib, ntile := j.ntile, gx := j.gx, gy := j.gy, gz := j.gz, gang := false,
    queue := 0, home := b.die, when_ := now, order := order, st := .placed, retired := (j.gx + 1) * (j.gy + 1) * (j.gz + 1) - 1,
    units := [{ idx := b.u.idx, snap := j.snap, nback := j.copy - 1 }] }
/-- The copy of another device's unit has ended: that device is told, and its record here ends, or is made anew for a further request
of the unit that waits (R97, R98, log 87). -/
def Chip.guestEnded (e : Env) (c : Chip) (l : Launch) (n : UnitRec) (r : CopyRec) (how : EndHow) (work vis : Nat) : Chip :=
  let b : BReq := { u := ⟨l.vi, l.lid % 2 ^ 32, n.idx, r.copy⟩, est := 0, die := r.die, until_ := 0, serial := 0, note := .ended r.xk how r.start e.now work vis }
  let waits := (c.dies.flatMap fun p => p.2.backups).find? fun w => w.u.vi == l.vi && w.u.lid == l.lid && w.u.idx == n.idx
  let again : List Launch := (waits.bind fun w => w.job.map fun j => guestLaunch w j e.now l.order).toList
  (c.modVi l.vi fun v => { v with launches := v.launches.filter (·.order ≠ l.order) ++ again }).noteTo (l.lid / 2 ^ 32 - 1) b
/-- What the end of a copy makes of its unit (R441): `won`, the unit's winner is this copy; `others`, another copy lives. -/
def endResult (how : EndHow) (won others hasWinner : Bool) : Option URes :=
  match how with
  | .done => some .won
  | .void => some .void
  | .failed code => if won then some .won else if others || hasWinner then none else some (.failed code)
  | .loser _ => if won then some .won else if others || hasWinner then none else some (.failed 0x15)
  | .cancelled => if won then some .won else if others || hasWinner then none else some .cancelled
/-- The dispatcher learns that a copy has ended: its writes belong to its launch (R57), and its total to the monitor of its cluster where
it won (R95). -/
def Chip.copyEnded (e : Env) (c : Chip) (u : URef) (xk : Nat) (how : EndHow) (work vis : Nat) : Chip :=
  match (c.vi u.vi).findCopy u xk with
  | none => c
  | some (l, n, r) =>
    let winner : Option Nat := match how with | .done | .void => some (n.winner.getD r.copy) | _ => n.winner
    let others := n.copies.any fun y => y.live && y.copy ≠ r.copy
    let off (r : CopyRec) : CopyRec := { r with st := .ended, stop := if r.dev.isSome then r.stop else e.now }
    let c := (c.modLaunch u.vi l.order fun l => { l with vis := max l.vis vis }).modUnit u.vi l.order n.idx fun n =>
      { n with winner := winner, copies := updFirst (fun y => y.copy == r.copy) off n.copies }
    let res := if n.res.isSome then none else endResult how (winner == some r.copy) others winner.isSome
    let c := match res with
      | some .won | some .void => if r.dev.isSome then c else c.recordTotal e xk u.vi n.hclass work
      | _ => c
    if 2 ^ 32 ≤ l.lid then c.guestEnded e l n r how work vis
    else
      let c := match how with | .loser _ => c.count u.vi fun k => { k with ucancel := k.ucancel + 1 } | _ => c
      let c := match res with | some s => c.retireUnit u.vi l.order n.idx s vis | none => c
      c.reconcile u.vi l.order n.idx
/-- A copy that never started releases what it reserved and pinned, and ends (R89). -/
def Chip.dropPlacing (e : Env) (c : Chip) (u : URef) (r : CopyRec) (how : EndHow) : Chip :=
  let c := r.pins.foldl (fun c p => c.unpin r.xk u.vi p.2) c
  let c := (c.orphan u r.xk (c.unpinsOut r.xk)).copyEnded e u r.xk how 0 0
  if (c.ctx r.xk).resv then c.fallIdle r.xk else c
/-- A cancellation goes to a live copy (R435, R440): one in PLACING or PINNING ends at once, and one on another device is cancelled there. -/
def Chip.cancelLive (e : Env) (c : Chip) (u : URef) (r : CopyRec) (reason : Nat) : Chip :=
  match r.st with
  | .placing | .pinning => c.dropPlacing e u r (if reason = 0 then .loser false else .cancelled)
  | .resident =>
    (match r.dev with
     | none => c.send (dispNode r.die) (coreNode (coreOf r.xk)) .cmt (.cancelCopy r.xk reason (some u))
     | some d => { c with outbox := c.outbox ++ [(extDevice d, .cancelCopy r.xk reason (some { u with lid := guestLid (c.group % 16) u.lid }))] })
  | .ended => c

/-! ### Cancelling a level (R17, R50, R85, R451) -/

/-- A launch that is not complete is cancelled: its queued units retire, its live copies are told (R85, R451). -/
def Chip.cancelLaunch (e : Env) (c : Chip) (vi order : Nat) : Chip :=
  match c.launch? vi order with
  | none => c
  | some l =>
    if l.st == .complete || l.cancelled then c
    else
      let queued := l.total - l.retired - (l.units.filter fun u => u.res.isNone).length
      let c := c.modLaunch vi order fun l => { l with cancelled := true, st := .cancelled }
      let c := l.units.foldl (fun c u =>
        u.copies.foldl (fun c r => if r.live then c.cancelLive e ⟨vi, l.lid, u.idx, r.copy⟩ r 1 else c) (c.dropUnitBackups vi order l.lid u.idx)) c
      c.unitsRetired vi order queued false 0
/-- The launches to cancel with a set of them: dependants in BLOCKED, to any depth (R17). -/
def Vi.dependants (v : Vi) : Nat → List Nat → List Nat
  | 0, l => l
  | n + 1, l => v.dependants n (l ++ (v.launches.filter fun m => m.st == .blocked && !l.contains m.order &&
      m.preds.any fun p => (v.pred m p).any fun q => l.contains q.order).map (·.order))
/-- Launches are cancelled with their dependants. -/
def Chip.cancelLaunches (e : Env) (c : Chip) (vi : Nat) (os : List Nat) : Chip :=
  ((c.vi vi).dependants (c.vi vi).launches.length os).foldl (fun c o => c.cancelLaunch e vi o) c
/-- The level is live, or remembered. -/
def Vi.knows (v : Vi) (level id : Nat) : Bool :=
  if level = 0 then v.launches.any fun l => l.lid == id && l.remembered else v.levels.any fun l => l.kind == level && l.id == id
/-- The level is live. -/
def Vi.liveLevel (v : Vi) (level id : Nat) : Bool :=
  if level = 0 then v.launches.any fun l => l.lid == id && l.st != .complete else v.levels.any fun l => l.kind == level && l.id == id && !l.complete
/-- CANCEL and WKCAN of a level that is not complete; a cancelled graph, phase or job is also closed (R50). -/
def Chip.cancelLevel (e : Env) (c : Chip) (vi level id : Nat) : Chip :=
  let v := c.vi vi
  if level = 0 then c.cancelLaunches e vi ((v.launches.filter fun l => l.lid == id && l.st != .complete).map (·.order))
  else if v.liveLevel level id then
    let c := c.modVi vi fun v => { v with levels := updFirst (fun l => l.kind == level && l.id == id && !l.complete) (fun l => { l with closed := true, cancelled := true }) v.levels }
    (c.cancelLaunches e vi ((v.launches.filter fun l => l.levels.contains (level, id) && l.st != .complete).map (·.order))).tryLevel vi level id
  else c

end Sys2Proof.Machine
end

