-- ==== Sys2Proof/Machine/Commit.lean ====
section
/-! DEFINITION. The tile header and the events of its home: pins, claims, streams, publishes; the end of a context; COMMIT,
SEAL, CLAIMQ, RPIN, RUNPIN, WKQ, WKCAN and DONE (R25 to R29, R152, R303, R372, R432 to R451). -/
namespace Sys2Proof.Machine
open Sys2Proof

/-! ### The header (R25, R26) -/

/-- VERSION. -/
def hVersion (d : List Byte) : Nat := field d 0 32
/-- PSTATE: 0 OPEN, 1 CLAIMED, 2 STREAM. -/
def hPstate (d : List Byte) : Nat := field d 32 2
/-- LIVESEL names buffer B. -/
def hLiveB (d : List Byte) : Bool := field d 34 1 == 1
/-- SHV. -/
def hShv (d : List Byte) : Bool := field d 35 1 == 1
/-- CLV. -/
def hClv (d : List Byte) : Bool := field d 98 1 == 1
/-- The address of buffer A or B. -/
def hBuf (d : List Byte) (b : Bool) : W64 := w64 (field d (if b then 320 else 256) 52)
/-- PINA or PINB. -/
def hPins (d : List Byte) (b : Bool) : Nat := field d (if b then 208 else 192) 16
/-- The header with a pin count replaced. -/
def hSetPins (d : List Byte) (b : Bool) (n : Nat) : List Byte := setField d (if b then 208 else 192) 16 n
/-- TLINES. -/
def hTlines (d : List Byte) : Nat := field d 384 16
/-- The fields of a valid header (R26). -/
def hdrOk (d : List Byte) : Bool :=
  [(36, 28), (99, 29), (176, 16), (224, 32), (308, 12), (372, 12), (400, 624)].all (fun p => field d p.1 p.2 == 0) && hTlines d != 0 &&
  [hBuf d false, hBuf d true].all (fun a => isGlobal a && a.toNat % 128 == 0) && hPstate d != 3
/-- The claim is of this unit. -/
def hMyUnit (d : List Byte) (u : URef) (x y z : Nat) : Bool :=
  hClv d && field d 64 32 == u.lid % 2 ^ 32 && field d 128 16 == x && field d 144 16 == y && field d 160 16 == z
/-- The claim is of this copy. -/
def hMine (d : List Byte) (u : URef) (x y z : Nat) : Bool := hMyUnit d u x y z && field d 96 2 == u.copy
/-- The header as its home reads it. -/
def hdrAt (e : Env) (c : Chip) (q : Req) : List Byte := c.homeRead e q.vi q.pa 128
/-- The header written by its home; a WADDR on it may wake. -/
def Chip.putHdr (e : Env) (c : Chip) (q : Req) (d : List Byte) : Chip := (c.putKey q.vi q.pa d).wake e q.home q.pa 128
/-- The header with a new claim (R433). -/
def hClaim (d : List Byte) (u : URef) (x y z : Nat) : List Byte :=
  [(64, 32, u.lid), (128, 16, x), (144, 16, y), (160, 16, z), (96, 2, u.copy), (98, 1, 1), (32, 2, 1)].foldl (fun d p => setField d p.1 p.2.1 p.2.2) d
/-- The header with its claim released (R440). -/
def hRelease (d : List Byte) : List Byte := setField (setField d 98 1 0) 32 2 0
/-- The header after a publish (R28). -/
def hPublish (d : List Byte) : List Byte :=
  [(34, 1, if hLiveB d then 0 else 1), (0, 32, hVersion d + 1), (35, 1, 1), (98, 1, 0), (32, 2, 0)].foldl (fun d p => setField d p.1 p.2.1 p.2.2) d

/-! ### Pins (R29, R448) -/

/-- A pin against a header: which buffer, or the failure code, the first of R22's table that applies (R22, R29, R442). -/
def pinResolve (d : List Byte) (p : Nat) : Except Nat Bool :=
  let v := hVersion d
  let ok (b : Bool) : Except Nat Bool := if hdrOk d then .ok b else .error 0x13
  if p = 0xFFFFFFFF ∨ p = v then ok (hLiveB d)
  else if p = (v + 2 ^ 32 - 1) % 2 ^ 32 then (if hShv d && hPstate d ≠ 2 then ok (!hLiveB d) else .error 0x11)
  else if (p + 2 ^ 32 - v) % 2 ^ 32 < 2 ^ 31 then .error 0x12 else .error 0x11
/-- PIN_REQUEST (R29, R448). -/
def execPinRequest (q : Req) (s : State) : Host.Outcome State Fault Refusal :=
  run s fun e c =>
    let d := hdrAt e c q
    let ver : Nat := match q.act with | .pin _ _ v | .rpin v => v.toNat | _ => 0
    let answer (c : Chip) (r : Except Nat Bool) : Chip :=
      match q.act with
      | .pin .. => c.send q.home (dispNode (dieOf (coreOf q.src))) .rsp (.pinReply q q.home (match r with
          | .ok b => .pinned (hBuf d b) b (hTlines d) q.pa
          | .error 0x11 => .stalepin
          | .error 0x12 => .earlypin
          | .error _ => .badhdr))
      | _ => c.send q.home (reqFrom q) .rsp (match r with
          | .ok b => .loadReply q (leBytes 8 (hBuf d b).toNat) [] (2 * hTlines d + bn b)
          | .error code => .loadReply q (leBytes 8 code) [] 0)
    if c.badAt q.pa 128 then c.refuse q.home q 0x10 0 else
    match pinResolve d ver with
    | .ok b =>
      if hPins d b = 65535 then
        c.send q.home (reqFrom q) .rsp (.pinRetry q) (e.now + (match q.act with | .pin .. => retryTicks | _ => c.reqTicks q retryTicks))
      else answer (c.putHdr e q (hSetPins d b (hPins d b + 1))) (.ok b)
    | .error code => answer c (.error code)
/-- PIN_RETRY (R29): the pin is asked for again while its copy still wants it. -/
def execPinRetry (q : Req) (s : State) : Host.Outcome State Fault Refusal :=
  run s fun _ c =>
    let wanted : Bool := match q.act with
      | .pin u slot _ => ((c.vi u.vi).findCopy u q.src).any fun p => p.2.2.st == .pinning && p.2.2.due.head? == some slot && p.2.2.pinId == q.part
      | _ => (c.ctx q.src).partOut q.op q.part
    if wanted then c.request { q with home := 0, pa := 0 } else c

/-! ### Claims at the home (R433, R437, R439) -/

/-- A claim against a header: the answer, and the header after it (R433); none asks the core to send it again (EARLY). -/
def claimResolve (d : List Byte) (u : URef) (x y z : Nat) (expv : BitVec 32) : Option ClaimAns × List Byte :=
  if !hdrOk d then (some .badhdr, d)
  else if hClv d then (if hMine d u x y z then (some .won, d) else (some .lost, d))
  else
    let n := (expv - BitVec.ofNat 32 (hVersion d)).toNat
    if n = 0 then (if hPstate d = 0 then (some .won, hClaim d u x y z) else (some .stale, d))
    else if n < 2 ^ 31 then (none, d) else (some .stale, d)
/-- The grant of a stream to the copy that holds the claim, or BUSY (R437). -/
def streamGrant (e : Env) (c : Chip) (q : Req) (u : URef) (x y z slot : Nat) : Chip :=
  let d := hdrAt e c q
  if !hMine d u x y z then c
  else if hPins d (!hLiveB d) ≠ 0 then
    (c.count q.vi fun k => { k with cbusy := k.cbusy + 1 }).send q.home (reqFrom q) .rsp (.commitBusyRetry { q with act := .sgrant u x y z slot }) (e.now + c.reqTicks q retryTicks)
  else (c.putHdr e q (setField (setField d 35 1 0) 32 2 2)).send q.home (reqFrom q) .rsp
    (.claimAnswer q (.granted slot (hTlines d) (hBuf d (!hLiveB d)) q.home q.pa))
/-- The die whose dispatcher placed a unit's original copy (R433). -/
def Chip.origDie (c : Chip) (u : URef) : Nat :=
  (((c.vi u.vi).findUnit u).bind fun p => (p.2.copies.find? (·.copy == 0)).map (·.die)).getD (u.vi % 8)
/-- The device whose unit a claim is for: that of the copy, or the one for which the copy is a backup (R98, log 87). -/
def Chip.ownerDev (c : Chip) (q : Req) (u : URef) : Nat := if u.lid < 2 ^ 32 then (reqPeer q).getD (c.group % 16) else u.lid / 2 ^ 32 - 1
/-- A win notice goes to the dispatcher that placed the unit's original copy (R433), on another device for its units (log 87). -/
def Chip.tellWin (c : Chip) (q : Req) (u : URef) : Chip :=
  let u' : URef := { u with lid := u.lid % 2 ^ 32 }
  if c.ownerDev q u = c.group % 16 then c.send q.home (dispNode (c.origDie u')) .cmt (.winNotice u')
  else { c with outbox := c.outbox ++ [(extDevice (c.ownerDev q u), .winNotice u')] }
/-- CLAIM_REQUEST (R432, R433); with a lone COMMIT the home goes on to grant its stream, with VOID it releases the claim (R441), and for
a group it sends the claims of the secondary tiles, in entry order (R439). -/
def execClaimRequest (q : Req) (s : State) : Host.Outcome State Fault Refusal :=
  run s fun e c =>
    if c.badAt q.pa 128 then c.refuse q.home q 0x10 0 else
    match q.act with
    | .claim kind u x y z expv =>
      let d := hdrAt e c q
      (match claimResolve d u x y z expv with
       | (none, _) => c.send q.home (reqFrom q) .rsp (.claimRetry q) (e.now + c.reqTicks q retryTicks)
       | (some a, d') =>
         let c := if a = .won ∧ !hClv d then c.tellWin q u else c
         let c := if a = .won then c.putHdr e q (if kind = .void then hRelease d' else d') else c
         let c := c.send q.home (reqFrom q) .rsp (.claimAnswer q a)
         match a, kind with
         | .won, .commit => streamGrant e c q u x y z 0
         | .won, .group secs => (List.range secs.length).foldl (fun c i => match secs[i]? with
             | some t => c.request { src := q.src, host := q.host, part := q.part, vi := q.vi, act := .gclaim u x y z t.2 (i + 1) q.home, va := t.1, n := 128 }
             | none => c) c
         | _, _ => c)
    | .sgrant u x y z slot => streamGrant e c q u x y z slot
    | _ => c
/-- GROUP_CLAIM (R439): the answer goes to the copy, and to the copy alone. -/
def execGroupClaim (q : Req) (s : State) : Host.Outcome State Fault Refusal :=
  run s fun e c =>
    if c.badAt q.pa 128 then c.refuse q.home q 0x10 0 else
    match q.act with
    | .gclaim u x y z expv _ _ =>
      (match claimResolve (hdrAt e c q) u x y z expv with
       | (some .won, d) => (c.putHdr e q d).send q.home (reqCore q) .rsp (.claimAnswer q .won)
       | _ => c.send q.home (reqCore q) .rsp (.claimAnswer q .groupmiss))
    | _ => c
/-- CLAIM_RETRY (R433): a claim answered EARLY is sent again while its context waits for it. -/
def execClaimRetry (q : Req) (s : State) : Host.Outcome State Fault Refusal :=
  run s fun _ c => if (c.ctx q.src).pend.id = q.part then c.request { q with home := 0, pa := 0 } else c
/-- COMMIT_BUSY_RETRY (R437): the commit asks again. -/
def execCommitBusyRetry (q : Req) (s : State) : Host.Outcome State Fault Refusal :=
  run s fun _ c => if (c.ctx q.src).commit.any (·.id == q.part) then c.request { q with home := 0, pa := 0 } else c
/-- WIN_NOTICE at the dispatcher (R435): the other live copies are cancelled, waiting backups refunded, the unit sealed. -/
def execWinNotice (u : URef) (s : State) : Host.Outcome State Fault Refusal :=
  run s fun e c =>
    match (c.vi u.vi).findUnit u with
    | none => c
    | some (l, n) =>
      let c := (n.copies.filter fun r => r.live && r.copy ≠ u.copy).foldl (fun c r => c.cancelLive e { u with copy := r.copy } r 0) c
      let away := !(n.copies.any fun r => r.copy == u.copy)
      (c.dropUnitBackups u.vi l.order l.lid n.idx).modUnit u.vi l.order n.idx fun n =>
        { n with sealed := true, winner := if away then some u.copy else n.winner }
/-- CLAIM_RELEASE: a pin or a claim leaves a header (R29, R440). The record of the pin's copy waits for no more of it (R152, R418). -/
def execClaimRelease (q : Req) (s : State) : Host.Outcome State Fault Refusal :=
  run s fun e c =>
    let d := hdrAt e c q
    match q.act with
    | .unpin b => (c.putHdr e q (hSetPins d b (hPins d b - 1))).storeEnded q.part 0
    | .unclaim u x y z => if hMine d u x y z then c.putHdr e q (hRelease d) else c
    | _ => c

/-! ### Streaming and publishing (R437 to R439) -/

/-- The next line that a commit can stream: of a granted tile, its source line full (R210, R437). -/
def Chip.streamNext (c : Chip) (xk : Nat) : List Req :=
  let x := c.ctx xk
  match x.unit, x.commit with
  | some u, some m => (List.range m.tiles.length).filterMap fun s =>
      (m.tiles[s]?).bind fun t =>
        if x.ending.isNone && t.granted && decide (t.sent < t.tlines) && (c.core (coreOf xk)).fullOver (t.src.toNat % 2 ^ 18 + 128 * t.sent) 128 then
          some { src := xk, part := m.id, vi := x.vi, act := .stream u.u s t.sent, va := t.sh + w64 (128 * t.sent), n := 128 } else none
  | _, _ => []
/-- STREAM_LINE (R202, R437): at the core a line is read and sent to its place in the shadow buffer; at the home it is written like a
copy's. A line that its home refuses ends the copy. -/
def execStreamLine (q : Req) (refused : Bool) (s : State) : Host.Outcome State Fault Refusal :=
  run s fun e c =>
    let xk := q.src
    match q.act with
    | .stream u slot line =>
      if refused then (if ((c.ctx xk).unit.map (·.u)) = some u ∧ (c.ctx xk).commit.any (·.id == q.part) then c.modCtx xk fun x => x.end_ 0x18 else c)
      else if !q.data.isEmpty then storeAt e c q
      else if !(c.streamNext xk).any (fun r => r.act == q.act && r.part == q.part) then c
      else
        let src := sram (coreOf xk) (((c.ctx xk).commit.bind fun m => m.tiles[slot]?).elim 0 (fun t => t.src.toNat % 2 ^ 18) + 128 * line)
        if c.badAt src 128 then c.modCtx xk fun x => x.end_ 0x18
        else (c.modTile xk slot fun k => { k with sent := k.sent + 1 }).request { q with data := rdN e c src 128 }
    | _ => c
/-- PUBLISH (R28, R438): one step at the home, while the claim still stands; a published primary makes the copy the winner. -/
def execPublish (q : Req) (s : State) : Host.Outcome State Fault Refusal :=
  run s fun e c =>
    match q.act with
    | .publish u x y z slot =>
      let d := hdrAt e c q
      if hMine d u x y z && hPstate d == 2 then
        let c := (c.putHdr e q (hPublish d)).send q.home (reqFrom q) .rsp (.claimAnswer q (.published slot))
        if slot ≠ 0 then c
        else if q.host then
          (if c.ownerDev q u = c.group % 16 then (match (c.vi u.vi).findUnit { u with lid := u.lid % 2 ^ 32 } with
            | some (l, n) => c.modUnit u.vi l.order n.idx fun n => { n with winner := if n.copies.any (·.copy == u.copy) then some u.copy else n.winner }
            | none => c) else c)
        else match (c.vi u.vi).findCopy u q.src with
          | some (l, n, r) => c.modUnit u.vi l.order n.idx fun n => { n with winner := some r.copy }
          | none => c
      else c
    | _ => c
/-- A claim that was won for a copy that has ended meanwhile is released by the dispatcher (R440). -/
def Chip.lateWon (c : Chip) (q : Req) : Chip :=
  let rel (u : URef) (x y z : Nat) : Chip :=
    if ((c.vi u.vi).ctxOf u).isSome then c else c.request { src := q.src, vi := q.vi, act := .unclaim u x y z, va := q.va, n := 128 }
  match q.act with
  | .claim _ u x y z _ | .gclaim u x y z _ _ _ => rel u x y z
  | _ => c
/-- CLAIM_ANSWER at the copy (R433 to R439, R445). -/
def execClaimAnswer (q : Req) (ans : ClaimAns) (s : State) : Host.Outcome State Fault Refusal :=
  run s fun _ c =>
    let xk := q.src
    let x := c.ctx xk
    let mine : Bool := x.pend.id == q.part || x.commit.any (·.id == q.part)
    let other : Chip := if ans = .won then c.lateWon q else c
    match x.unit with
    | none => other
    | some u =>
      if !mine then other
      else
        let ask (c : Chip) (a : Act) (va : W64) : Chip := c.request { src := xk, part := q.part, vi := x.vi, act := a, va := va, n := 128 }
        let sealIt (c : Chip) : Chip := c.modCtx xk fun x => { x with unit := x.unit.map fun u => { u with sealed := true } }
        let grants (c : Chip) (m : Commit) : Chip := (List.range m.tiles.length).foldl (fun c s => match m.tiles[s]? with
          | some t => ask c (.sgrant u.u u.tx u.ty u.tz s) t.head
          | none => c) c
        let wonTile (c : Chip) (slot : Nat) : Chip :=
          let c := c.modTile xk slot fun t => { t with won := true }
          match (c.ctx xk).commit with
          | some m => if m.tiles.all (·.won) then grants c m else c
          | none => c
        match ans with
        | .won =>
          (match q.act with
           | .claim kind _ _ _ _ _ =>
             let c := sealIt c
             (match kind with
              | .seal => c.modCtx xk fun x => { x with pend := {}, wait := .free }
              | .void => c.answer xk q.part (.value 0 0)
              | .commit => c
              | .group _ => wonTile c 0)
           | .gclaim _ _ _ _ _ slot _ => wonTile c slot
           | _ => sealIt c)
        | .granted slot tlines sh home pa =>
          let c := sealIt c
          (match x.commit.bind fun m => m.tiles[slot]? with
           | none => c
           | some t =>
             if t.granted then c
             else if (c.checkOwn xk t.src (128 * tlines) 128).isSome then
               (c.modCtx xk fun x => { x with commit := none }).answer xk q.part (.refused 6 t.src)
             else c.modTile xk slot fun t => { t with granted := true, tlines := tlines, sh := sh, home := home, pa := pa })
        | .published slot =>
          if slot = 0 then
            (c.modCtx xk fun x => { x with commit := none, unit := x.unit.map fun u => { u with published := true } }).answer xk q.part (.value 0 0)
          else
            let done : Option W64 := (x.commit.bind fun m => m.tiles[slot]?).map (·.head)
            let c := (c.modTile xk slot fun t => { t with published := true }).modCtx xk fun x =>
              { x with unit := x.unit.map fun u => { u with claims := u.claims.filter fun a => some a != done } }
            if (c.ctx xk).commit.any Commit.primaryReady then c.askPublish xk 0 else c
        | .lost => c.modCtx xk fun x => x.end_ 0
        | .stale => c.modCtx xk fun x => x.end_ 3
        | .badhdr => c.modCtx xk fun x => x.end_ 0x13
        | .dfetch => c.modCtx xk fun x => x.end_ 0x17
        | .groupmiss => c.modCtx xk fun x => x.end_ 0x14
        | .streamflt => c.modCtx xk fun x => x.end_ 0x18

/-! ### The end of a context (R152, R372, R440) -/

/-- The parts of the context's stores that are still out. -/
def Ctx.storesOut (x : Ctx) : List Nat := (x.ops.filter (·.ctr == .st)).flatMap fun o => o.parts.map (·.id)
/-- The STRELs that the end of a context finds held leave by themselves, once the stores before them are over and GTIME has reached
VISMAX (R292, R310, log 105). -/
def Ctx.lateRels (x : Ctx) : List LateRel :=
  (x.ops.filter (·.hold)).filterMap fun o => o.parts.head?.map fun p =>
    ⟨p.q, x.vismax, (x.ops.filter fun y => y.ctr == .st && decide (y.id < o.id)).flatMap fun y => y.parts.map (·.id)⟩
/-- The end of work is reported: to the dispatcher, the queue engine, the caller of a task or the mailbox (R56, R152, R349, R355).
DONE counts in WORKCTR, and no other way of ending does (R93). Stores that are still out and releases of pins belong to what a release
covers (R57, R152). R56 names for a host message's record only its retirement by DONE: one that failed answers FAILED (R372), and one
that a teardown ends answers CANCELLED (DESIGN CHOICE, log 108). -/
def Chip.report (e : Env) (c : Chip) (xk : Nat) (x : Ctx) (how : EndHow) : Chip :=
  match x.kind with
  | .unit => (match x.unit with
     | some u =>
       let work := x.workctr.toNat + (match how with | .done | .void => 1 | _ => 0)
       let how := if 2 ^ 32 ≤ u.u.lid ∧ u.published then .done else how
       (c.orphan u.u xk (x.storesOut ++ c.unpinsOut xk)).copyEnded e u.u xk how work x.vismax
     | none => c)
  | .host =>
    (match x.hmsg with
     | some m =>
       let st : Nat := match how with | .done | .void => 0 | .failed _ => 0x31 | _ => 0x30
       c.settleEntries x.vi x.vismax x.storesOut fun y => match y with
        | .hmsg n tag cpl => if n = m.serial then some (if cpl then some { opc := 4, status := st, tag := tag, value := 0 } else none) else none
        | _ => none
     | none => c)
  | .handler => c.runDone xk (match how with | .done | .void => true | _ => false)
  | .task => c.taskReply xk (match how with | .done | .void => 0 | .failed _ => 2 | _ => 1)
/-- The entries of a notice table that the end of work in a run leaves: a block in the run goes with it (R379). -/
def keepNotices (x : Ctx) (l : List NoticeE) : List NoticeE :=
  l.filter fun n => !(n.block.any fun b => decide (x.runBase ≤ b ∧ b < x.runBase + x.runLen))
/-- What the end of a context releases besides its locks: pins, buffers, notices without a block; then its report, and it falls idle. -/
def Chip.leave (e : Env) (c : Chip) (xk : Nat) (how : EndHow) : Chip :=
  let x := c.ctx xk
  let c := x.pins.foldl (fun c p => c.unpin xk x.vi p) c
  let c := (c.revokeBufs xk none).modCore (coreOf xk) fun k => { k with
    notices := (keepNotices x k.notices).filter fun n => n.ctx ≠ ctxNo xk || n.block.isSome, heldLoads := k.heldLoads.filter (·.src ≠ xk),
    late := k.late ++ x.lateRels }
  (c.report e xk x how).fallIdle xk
/-- Ghost entries that the end of a context needs (R329). -/
def Ctx.ghostNeed (x : Ctx) : Nat := (x.held.filter fun h => !h.lost).length + bn (x.waiting.any fun w => !w.unsent)
/-- The context can end now (R329). -/
def Chip.canEnd (c : Chip) (xk : Nat) : Bool := decide ((c.core (coreOf xk)).ghostsUsed + (c.ctx xk).ghostNeed ≤ 16)
/-- How a reason to end counts (R441): 0 lost, 1 cancelled, 2 teardown, 3 stale, others failure codes. -/
def endHow (reason : Nat) : EndHow :=
  match reason with
  | 0 => .loser false
  | 3 => .loser true
  | 1 | 2 => .cancelled
  | n => .failed n
/-- The claims of a copy that ends without publishing are released at their homes (R440). -/
def Chip.unclaim (c : Chip) (xk : Nat) (x : Ctx) : Chip :=
  match x.unit with
  | some u =>
    if u.hedged then
      ((if u.published then [] else [u.head]) ++ u.claims).foldl (fun c a =>
        c.request { src := xk, vi := x.vi, act := .unclaim u.u u.tx u.ty u.tz, va := a, n := 128 }) c
    else c
  | none => c
/-- A context ends without DONE (R372, R440): locks passed BROKEN, copies stopped, messages withdrawn, claims released. -/
def Chip.endNow (e : Env) (c : Chip) (xk reason : Nat) : Chip :=
  let c := (c.ctx xk).held.foldl (fun c h => c.giveUp xk h 1) c
  let c := ((((c.ghostWaiting xk).dropWaddr xk).stopCopies xk).dropReqs fun q => q.src == xk && (match q.act with | .stream .. => true | _ => false))
  let c := (c.withdrawAll xk).unclaim xk (c.ctx xk)
  c.leave e xk (endHow reason)
/-- The name of a save in the buffer tables (R391). -/
def saveKey (ck id : Nat) : Nat := ck * 65536 + id
/-- A saved context is cancelled (R391). -/
def Chip.endSaved (e : Env) (c : Chip) (ck : Nat) (s : Saved) (reason : Nat) : Chip :=
  let c := c.modCore ck fun k => { k with saved := k.saved.filter (·.id ≠ s.id), notices := keepNotices s.c k.notices }
  let c := s.c.held.foldl (fun c h => match (c.core ck).ghosts.find? (fun g => g.w.eid == h.eid && g.holds.isSome) with
    | some g => c.pass g.w g.key g.next 1 g.data false false
    | none => c) c
  let c := s.c.pins.foldl (fun c p => c.unpin s.ctx s.c.vi p) c
  ((c.revokeBufs s.ctx (some (saveKey ck s.id))).unclaim s.ctx s.c).report e s.ctx s.c (endHow reason)
/-- CANCEL_COPY (R435, R440): a cancellation reaches its copy, or a context that is to end can end. The device whose unit a backup here
belongs to names the context in which it was placed, which the backup may have left or not entered yet (log 87). -/
def execCancelCopy (xk reason : Nat) (u : Option URef) (s : State) : Host.Outcome State Fault Refusal :=
  run s fun e c =>
    let guest : Option (Launch × UnitRec × CopyRec) := u.bind fun r => if r.lid < 2 ^ 32 then none else
      ((c.vi r.vi).ctxOf r).bind fun y => (c.vi r.vi).findCopy r y
    let xk := guest.elim xk (·.2.2.xk)
    let x := c.ctx xk
    match u with
    | some r =>
      if guest.any fun p => p.2.2.st == .placing || p.2.2.st == .pinning then guest.elim c fun p => c.cancelLive e r p.2.2 reason
      else if x.st != .idle && (x.unit.map (·.u)) == some r then
        (if c.canEnd xk ∧ x.mop.isNone then c.endNow e xk (x.ending.getD reason) else c.modCtx xk fun x => x.end_ reason)
      else match (c.core (coreOf xk)).saved.find? fun s => (s.c.unit.map (·.u)) == some r with
        | some s => c.endSaved e (coreOf xk) s reason
        | none => c
    | none => if c.endReason xk = some reason ∧ c.canEnd xk ∧ x.mop.isNone then c.endNow e xk reason else c

/-! ### Instructions (R152, R445 to R451) -/

/-- The group list of a COMMIT: secondary tiles, or none where it is malformed (R445). -/
def groupList (c : Chip) (xk : Nat) (d : List Byte) : Option (List CTile) :=
  let n := wordAt d 0
  if n = 0 ∨ 3 < n then none
  else (List.range n).mapM fun i =>
    let head := w64 (wordAt d (4 + 4 * i))
    let src := w64 (wordAt d (5 + 4 * i))
    if isGlobal head && head.toNat % 128 == 0 && src.toNat % 128 == 0 && (c.ownOff xk src 128).isSome &&
        wordAt d (6 + 4 * i) / 2 ^ 32 == 0 && wordAt d (7 + 4 * i) == 0 then
      some { head := head, src := src, expv := BitVec.ofNat 32 (wordAt d (6 + 4 * i)) } else none
/-- COMMIT (R445). -/
def execCommit (d a b : BitVec 5) (s : State) : Host.Outcome State Fault Refusal :=
  run s fun e c => issue e c (.commit d a b) { x := [d.toNat, a.toNat, b.toNat], mem := true } fun e c xk x =>
    let src := x.getX a.toNat
    let lst := x.getX b.toNat
    if x.pend.kind = .commit then
      match x.pend.ans with
      | some (.value _ _) => .retire (c.modCtx xk fun x => x.setX d.toNat 0)
      | some (.refused code t) => .trap code t
      | none => .wait c .answer
    else match x.unit with
      | none => .trap 0x01 (w64 (encode (.commit d a b)).toNat)
      | some u =>
        if !u.hedged || u.published then .trap 0x01 (w64 (encode (.commit d a b)).toNat)
        else match c.checkOwn xk src 128 128 with
          | some code => .trap code src
          | none =>
            match (if lst = 0 then none else c.checkOwn xk lst 128 128) with
            | some code => .trap code lst
            | none =>
              match (if lst = 0 then some [] else groupList c xk (rdN e c (sram (coreOf xk) (lst.toNat % 2 ^ 18)) 128)) with
              | none => .trap 0x01 lst
              | some sec =>
                if x.cnt .st ≠ 0 then .wait c (.ctrs 63 0 63 63 63)
                else
                  let c' := c.modCtx xk fun x => { x with
                    commit := some { id := c.serial, tiles := { head := u.head, src := src, expv := u.expv } :: sec }
                    unit := x.unit.map fun u => { u with claims := u.claims.filter (fun a => !(sec.any (·.head == a))) ++ sec.map (·.head) } }
                  c'.sendClaim xk (if sec.isEmpty then .commit else .group (sec.map fun t => (t.head, t.expv))) .commit
/-- SEAL (R446). -/
def execSeal (d : BitVec 5) (s : State) : Host.Outcome State Fault Refusal :=
  run s fun e c => issue e c (.seal d) { x := [d.toNat] } fun _ c xk _ => c.sealed xk (.retire (c.modCtx xk fun x => x.setX d.toNat 0))
/-- CLAIMQ's value (R447). -/
def claimqAt (e : Env) (c : Chip) (q : Req) : W64 :=
  let d := hdrAt e c q
  if !hdrOk d then w64 (2 ^ 11)
  else
    let (mine, unit) := match (c.ctx q.src).unit with
      | some u => (hMine d u.u u.tx u.ty u.tz, hMyUnit d u.u u.tx u.ty u.tz)
      | none => (false, false)
    w64 (hVersion d * 2 ^ 32 + bn mine * 2 ^ 10 + bn unit * 2 ^ 9 + bn (hClv d) * 2 ^ 8 + field d 96 2 * 2 ^ 6 + bn (hShv d) * 2 ^ 5 +
      bn (hLiveB d) * 2 ^ 4 + hPstate d * 2 ^ 2)
/-- LOAD_REQUEST (R175, R180, R210). -/
def execLoadRequest (q : Req) (s : State) : Host.Outcome State Fault Refusal := run s fun e c => loadAt e c q (claimqAt e)
/-- A question about a header: the checks of R447, one operation in ld. -/
def askHeader (c : Chip) (xk : Nat) (x : Ctx) (d : BitVec 5) (ad : W64) (act : Act) : Fate :=
  if !isGlobal ad then .trap 0x09 ad
  else if ad.toNat % 128 ≠ 0 then .trap 0x05 ad
  else match x.lostOver ad 128 with
    | some h => c.takeLost xk h ad
    | none =>
      let q : Req := { src := xk, op := c.serial, part := c.serial + 1, vi := x.vi, act := act, va := ad, n := 128 }
      .retire ((c.next.next.addOp xk { id := q.op, kind := .ask, ctr := .ld, dst := .x d.toNat 8 false, parts := [⟨q.part, 0, q⟩] }).request q)
/-- CLAIMQ (R447). -/
def execClaimq (d a : BitVec 5) (s : State) : Host.Outcome State Fault Refusal :=
  run s fun e c => issue e c (.claimq d a) { x := [d.toNat, a.toNat], mem := true, ctr := .ld } fun _ c xk x => askHeader c xk x d (x.getX a.toNat) .claimq
/-- RPIN (R448). The eight pins are counted at issue, and once more as one arrives (log 106). -/
def execRpin (d a b : BitVec 5) (s : State) : Host.Outcome State Fault Refusal :=
  run s fun e c => issue e c (.rpin d a b) { x := [d.toNat, a.toNat, b.toNat], mem := true, ctr := .ld } fun _ c xk x =>
    let ad := x.getX a.toNat
    let v := x.getX b.toNat
    if !isGlobal ad then .trap 0x09 ad
    else if ad.toNat % 128 ≠ 0 then .trap 0x05 ad
    else if 2 ^ 32 ≤ v.toNat then .trap 0x01 v
    else if 8 ≤ (x.pins.filter (·.rpin)).length then .retire (c.modCtx xk fun x => x.setX d.toNat 1)
    else askHeader c xk x d ad (.rpin (BitVec.ofNat 32 v.toNat))
/-- RUNPIN (R449). -/
def execRunpin (a : BitVec 5) (s : State) : Host.Outcome State Fault Refusal :=
  run s fun e c => issue e c (.runpin a) { x := [a.toNat] } fun _ c xk x =>
    if x.cnt .ld ≠ 0 ∨ x.cnt .cp ≠ 0 then .wait c (.ctrs 0 63 0 63 63)
    else match x.pins.find? (·.buf == x.getX a.toNat) with
      | none => .retire c
      | some p => .retire ((c.modCtx xk fun x => { x with pins := x.pins.erase p }).unpin xk x.vi p)
/-- The operands of WKQ and WKCAN are legal (R450). -/
def wkOk (l id : W64) : Bool := decide (l.toNat < 4) && decide (id.toNat < 2 ^ 32)
/-- WKQ (R450). -/
def execWkq (d a b : BitVec 5) (s : State) : Host.Outcome State Fault Refusal :=
  run s fun e c => issue e c (.wkq d a b) { x := [d.toNat, a.toNat, b.toNat], ctr := .ld } fun _ c xk x =>
    let l := x.getX a.toNat
    let id := x.getX b.toNat
    if !wkOk l id then .trap 0x01 (w64 (encode (.wkq d a b)).toNat)
    else
      let q : Req := { src := xk, op := c.serial, part := c.serial + 1, vi := x.vi, act := .wkq l.toNat id.toNat, n := 8, home := viNode x.vi }
      .retire ((c.next.next.addOp xk { id := q.op, kind := .ask, ctr := .ld, dst := .x d.toNat 8 false, parts := [⟨q.part, 0, q⟩] }).send
        (ownNode xk) q.home .req (.loadRequest q))
/-- WKCAN (R451). -/
def execWkcan (d a b : BitVec 5) (s : State) : Host.Outcome State Fault Refusal :=
  run s fun e c => issue e c (.wkcan d a b) { x := [d.toNat, a.toNat, b.toNat] } fun e c xk x =>
    let l := x.getX a.toNat
    let id := x.getX b.toNat
    if !wkOk l id then .trap 0x01 (w64 (encode (.wkcan d a b)).toNat)
    else c.sealed xk (
      let known := (c.vi x.vi).knows l.toNat id.toNat || (c.vi x.vi).liveLevel l.toNat id.toNat
      .retire ((c.cancelLevel e x.vi l.toNat id.toNat).modCtx xk fun x => x.setX d.toNat (if known then 0 else 0x24)))
/-- DONE once nothing is outstanding and the claims are settled: locks released as UNLOCK does, latest first (R152). -/
def doneFate (e : Env) (c : Chip) (xk : Nat) (x : Ctx) (how : EndHow) : Fate :=
  let n := (x.held.filter fun h => !h.lost).length
  if n ≠ 0 ∧ e.now < x.vismax then .wait c (.time x.vismax)
  else if 16 < (c.core (coreOf xk)).ghostsUsed + n then .wait c (.ghosts n)
  else .stay ((x.held.reverse.foldl (fun c h => c.giveUp xk h 0) c).leave e xk how)
/-- DONE (R152, R441). -/
def execDone (s : State) : Host.Outcome State Fault Refusal :=
  run s fun e c => issue e c .done {} fun e c xk x =>
    if x.pend.kind = .void then
      match x.pend.ans with
      | some _ => doneFate e c xk x .void
      | none => .wait c .answer
    else if x.cnt .ld ≠ 0 ∨ x.cnt .st ≠ 0 ∨ x.cnt .cp ≠ 0 ∨ x.cnt .mx ≠ 0 ∨ x.cnt .msg ≠ 0 then .wait c (.ctrs 0 0 0 0 0)
    else match x.unit with
      | some u => if u.hedged && !u.published then c.sendClaim xk .void .void else doneFate e c xk x .done
      | none => doneFate e c xk x .done

end Sys2Proof.Machine
end

