-- ==== Sys2Proof/Machine/System.lean ====
section
/-! DEFINITION. Traps, upcalls, stops, saves and swaps: TRAP, BRK, ERET, IDLE, TLBINV, CTXSV, CTXLD, FLTACK, the CTXCTL
commands, CMAP swaps, the scratchpad split, and the traps of fetch and decode (R78 to R83, R105, R111, R160, R371 to R401, R460). -/
namespace Sys2Proof.Machine
open Sys2Proof

/-! ### Events of a context (R105, R111, R171, R374 to R379) -/

/-- What Step calls when a word does not decode (R111); an illegal pending prefix is reported instead, and dropped (R127, log 53). -/
def execIll (w : Word) (s : State) : Host.Outcome State Fault Refusal :=
  run s fun _ c =>
    let xk := c.cur
    let x := (c.ctx xk).begin_
    let c := c.setCtx xk x
    match x.fmt with
    | some f => if !fmtLegal f then (c.modCtx xk fun y => { y with fmt := none }).trapHere xk 0x01 (w64 f.toNat) else c.trapHere xk 0x01 (w64 w.toNat)
    | none => c.trapHere xk 0x01 (w64 w.toNat)
/-- FETCH_FAULT (R105): a precise trap at the PC; a PFAULT is logged with KIND 2, and waits where the buffer is full (R383).
A fetch at TRAPVEC that traps ends the context as failed (R372). -/
def execFetchFault (code : Nat) (tval : W64) (s : State) : Host.Outcome State Fault Refusal :=
  run s fun e c =>
    let xk := c.cur
    let x := (c.ctx xk).begin_
    let c := c.setCtx xk x
    let go (c : Chip) : Chip := if x.inTrap && x.priv && x.pc == x.trapvec then c.modCtx xk fun x => x.end_ trapFail else c.trapHere xk code tval
    if code = 8 then
      let migr := match walk e c x.vi tval with | .error m => m | .ok _ => false
      match c.logFault e (hash21 tval.toNat) x.vi tval 2 0 (ctxId c.group xk) (some (coreOf xk)) migr with
      | (c, some _) => go c
      | (c, none) => c.stall xk (.time (e.now + c.coreTicks (coreOf xk) 1024))
    else go c
/-- The context stands at a boundary at which a receiver event can be taken (R375). -/
def Ctx.atBoundary (x : Ctx) : Bool := (x.st == .ready || x.st == .stall) && x.mop.isNone && x.pend.kind != .save && x.ending.isNone
/-- MCHECK of register state (R374): at the next instruction boundary, with TVAL 0; it comes with no reply, and RECV is 0 (R375). -/
def execMcheck (xk : Nat) (s : State) : Host.Outcome State Fault Refusal :=
  run s fun e c =>
    let x := c.ctx xk
    if x.st = .idle ∨ x.ending.isSome then c
    else if x.atBoundary then c.modCtx xk fun x => (x.take false 0x10 x.pc 0).stopIfAsked e.now
    else c.timer (e.now + 1) (.mcheck xk)
/-- RECEIVER_FAULT (R171, R375): a refusal arrives at its core, or, with none given, the context stops at its boundary. -/
def execReceiverFault (xk : Nat) (r : Option Refused) (s : State) : Host.Outcome State Fault Refusal :=
  run s fun e c => match r with
    | some r => refusalArrives e c xk r
    | none => (receiverStop e c xk).modCtx xk (·.stopIfAsked e.now)
/-- UPCALL (R378). -/
def execUpcall (xk : Nat) (s : State) : Host.Outcome State Fault Refusal :=
  run s fun e c => (takeUpcall e c xk Chip.raiseEc).modCtx xk (·.stopIfAsked e.now)
/-- NOTICE (R379). -/
def execNotice (ck token : Nat) (err : Bool) (s : State) : Host.Outcome State Fault Refusal :=
  run s fun e c => noticeAt e c ck token err Chip.raiseEc

/-! ### TRAP, BRK, ERET, IDLE (R395 to R397) -/

/-- TRAP (R395): EPC is the address of the next instruction. It does not count in WORKCTR (log 52). -/
def execTrap (code : BitVec 6) (s : State) : Host.Outcome State Fault Refusal :=
  run s fun e c => issue e c (.trap code) {} fun _ c xk x => .stay (c.trap xk false 0x13 (x.pc + 4) (w64 code.toNat))
/-- BRK (R395). -/
def execBrk (code : BitVec 6) (s : State) : Host.Outcome State Fault Refusal :=
  run s fun e c => issue e c (.brk code) {} fun _ _ _ _ => .trap 0x12 (w64 code.toNat)
/-- ERET (R396): the mode and PC are restored, and the refused accesses are issued again before the instruction at PC. -/
def execEret (s : State) : Host.Outcome State Fault Refusal :=
  run s fun e c => issue e c .eret {} fun e c xk x => .stay ((c.setCtx xk { x.ret with workctr := x.workctr + 1 }).replayAll e xk)
/-- Ticks after which IDLE ends by itself (R397). -/
def idleTicks : Nat := 65536
/-- IDLE (R397). -/
def execIdle (s : State) : Host.Outcome State Fault Refusal :=
  run s fun e c => issue e c .idle {} fun e c xk x =>
    match x.wait with
    | .idle t => if x.idleWake || decide (t ≤ e.now) then .retire (c.modCtx xk fun y => { y with idleWake := false }) else .wait c (.idle t)
    | _ => .wait ((c.modCtx xk fun y => { y with idleWake := false }).timer (e.now + idleTicks) (.idleTimeout xk x.stamp)) (.idle (e.now + idleTicks))
/-- IDLE_TIMEOUT (R397). -/
def execIdleTimeout (xk stamp : Nat) (s : State) : Host.Outcome State Fault Refusal :=
  run s fun _ c => c.modCtx xk fun x => match x.wait with
    | .idle _ => if x.stamp = stamp then { x with idleWake := true } else x
    | _ => x

/-! ### TLBINV, TLBCMD (R398) -/

/-- Ticks that outlast every lease granted under the old entries (R398). -/
def invalTicks : Nat := 4100
/-- The homes that an invalidation goes to. -/
def invalHomes (all : Bool) (va : W64) : List Nat := if all then List.range 8 else [hash21 va.toNat]
/-- TLBINV (R398). -/
def execTlbinv (a b : BitVec 5) (s : State) : Host.Outcome State Fault Refusal :=
  run s fun e c => issue e c (.tlbinv a b) { x := [a.toNat, b.toNat] } fun e c xk x =>
    let va := x.getX a.toNat
    let k := x.getX b.toNat
    if x.pend.kind = .inval then
      match x.pend.ans with
      | some (.value _ t) => if t + invalTicks ≤ e.now then .retire c else .wait c (.time (t + invalTicks))
      | _ => .wait c .answer
    else if k.toNat / 4 ≠ 0 ∨ 1 < k.toNat % 4 then .trap 0x01 k
    else if k.toNat = 0 ∧ !isGlobal va then .trap 0x09 va
    else
      let hs := invalHomes (k.toNat == 1) va
      let c := c.next.modCtx xk fun x => { x with pend := { kind := .inval, id := c.serial, left := hs.length } }
      .wait (hs.foldl (fun c d => c.send (ownNode xk) (homeNode d) .ctl (.inval d x.vi (k.toNat == 1) va (some xk))) c) .answer
/-- The operation of a TLBCMD register is under way: BUSY (R398). -/
def Vi.tlbActive (v : Vi) (now : Nat) : Bool := v.tlbBusy && !(v.tlbLeft == 0 && decide (v.tlbT + invalTicks ≤ now))
/-- TLBCMD (R398): the same operation for host system software. -/
def execTlbcmd (vi : Nat) (value : W64) (s : State) : Host.Outcome State Fault Refusal :=
  run s fun e c =>
    if (c.vi vi).tlbActive e.now then c
    else
      let all := bit value.toNat 63
      let va := w64 (value.toNat % 2 ^ 52)
      let hs := invalHomes all va
      let c := c.modVi vi fun v => { v with tlbAddr := va, tlbAll := all, tlbBusy := true, tlbLeft := hs.length, tlbT := 0 }
      hs.foldl (fun c d => c.send tanNode (homeNode d) .ctl (.inval d vi all va none)) c

/-! ### Halts (R79, R385, R388) -/

/-- A stop is asked of a context; it takes effect at once at a boundary. -/
def Ctx.askStop (x : Ctx) (now : Nat) (f : Ctx → Ctx) : Ctx :=
  match x.st with
  | .idle => x
  | .halt => f x
  | _ => ({ f x with stopReq := true }).stopIfAsked now
/-- A stop is asked of a context; during a clock hop of its core it waits for the hop's end (R406). -/
def Chip.askStop (c : Chip) (now xk : Nat) (f : Ctx → Ctx) : Chip :=
  c.modCtx xk fun x => if c.hopping (coreOf xk) && x.st != .idle && x.st != .halt then { f x with stopReq := true } else x.askStop now f
/-- A context leaves HALT once no halt is in force: it takes a grant that waits for it, and continues at EPC (R329, R388). -/
def Chip.unhalt (e : Env) (c : Chip) (xk : Nat) : Chip :=
  let x := c.ctx xk
  if x.st == .halt && !x.haltCtl && !x.haltPwr && !x.haltSwap then
    let per := c.coreTicks (coreOf xk) 1
    let c := ((c.takeGrant e xk).dropWaddr xk).modCtx xk fun x => { x with st := x.was, pc := x.epc, budgetAt := e.now, perCycle := per, stamp := x.stamp + 1, replayDue := false }
    if x.replayDue then c.replayAll e xk else c
  else c
/-- The end of a CTXCTL command with a status (R385). -/
def Chip.ctlDone (c : Chip) (die st : Nat) : Chip := c.modDie die fun d => { d with ctxPend := 0, ctxWait := false, ctxstatus := st }
/-- The contexts of a core that are not IDLE. -/
def Chip.busyCtxs (c : Chip) (ck : Nat) : List Nat := ((List.range 8).map (ck * 8 + ·)).filter fun xk => (c.ctx xk).st != .idle
/-- The context is IDLE or in HALT. -/
def Ctx.stopped (x : Ctx) : Bool := x.st == .idle || x.st == .halt
/-- HALT (R385). -/
def execHalt (die core ctx : Nat) (s : State) : Host.Outcome State Fault Refusal :=
  run s fun e c =>
    let xk := (die * 768 + core) * 8 + ctx
    let x := c.ctx xk
    if (c.die die).ctxWait then (if x.stopped then c.ctlDone die 0 else c)
    else if 768 ≤ core ∨ x.stopped then c.ctlDone die 1
    else
      let c := c.askStop e.now xk fun x => { x with haltCtl := true }
      if (c.ctx xk).stopped then c.ctlDone die 0 else c.modDie die fun d => { d with ctxWait := true }
/-- HALTALL (R385): every such context of the core. -/
def execHaltAll (die core : Nat) (s : State) : Host.Outcome State Fault Refusal :=
  run s fun e c =>
    let ck := die * 768 + core
    let all (c : Chip) : Bool := (c.busyCtxs ck).all fun xk => (c.ctx xk).stopped
    if 768 ≤ core then c.ctlDone die 0
    else if (c.die die).ctxWait then (if all c then c.ctlDone die 0 else c)
    else
      let c := ((c.busyCtxs ck).filter fun xk => !(c.ctx xk).stopped).foldl (fun c xk => c.askStop e.now xk fun x => { x with haltCtl := true }) c
      if all c then c.ctlDone die 0 else c.modDie die fun d => { d with ctxWait := true }
/-- RESUME (R385, R388). -/
def execResume (die core ctx : Nat) (s : State) : Host.Outcome State Fault Refusal :=
  run s fun e c =>
    let xk := (die * 768 + core) * 8 + ctx
    if core < 768 ∧ (c.ctx xk).st = .halt then
      ((c.modCtx xk fun x => { x with haltCtl := false }).unhalt e xk).ctlDone die 0
    else c.ctlDone die 2

/-! ### CMAP swaps (R83, R392, R393) -/

/-- A swap starts: BUSY, FRZ, and both cores halt (R83). -/
def Chip.startSwap (e : Env) (c : Chip) (die : Nat) (w : Swap) : Chip :=
  let c := c.modDie die fun d => { d with swap := some w }
  (c.busyCtxs (die * 768 + w.a) ++ c.busyCtxs (die * 768 + w.b)).foldl (fun c xk => c.askStop e.now xk fun x => { x with haltSwap := true }) c
/-- CMAPSWP (R83). -/
def execCmapswp (die : Nat) (value : W64) (s : State) : Host.Outcome State Fault Refusal :=
  run s fun e c =>
    let n := value.toNat
    let a := bits n 8 2 * 192 + bits n 0 8
    let b := bits n 24 2 * 192 + bits n 16 8
    if (c.die die).swap.isSome ∨ a = b ∨ 191 < bits n 0 8 ∨ 191 < bits n 16 8 then c
    else (c.modDie die fun d => { d with swpReg := w64 (bits n 24 2 * 2 ^ 24 + bits n 16 8 * 2 ^ 16 + bits n 8 2 * 2 ^ 8 + bits n 0 8) }).startSwap e die ⟨a, b⟩
/-- A core holds an active actor binding; an evicted actor's stub is one (R78, log 42). -/
def Core.hasActor (k : Core) : Bool := k.mbs.any fun p => p.2.en
/-- A core that may take over another's work (R393). -/
def Chip.cool (c : Chip) (p : Nat) : Bool :=
  let ck := c.logical p
  (List.range 8).all (fun n => (c.ctx (ck * 8 + n)).free) && !(c.core ck).hasActor && (c.core ck).saved.isEmpty && !(c.pcore p).off && !c.frozen ck
/-- The cool idle core of the lowest temperature, of the same cluster first (R393, log 101). -/
def Chip.coolest (c : Chip) (temp : Nat → Nat) (p : Nat) : Option Nat :=
  let best (l : List Nat) : Option Nat := l.foldl (fun (a : Option Nat) q => match a with | none => some q | some b => if temp q < temp b then some q else a) none
  let l := ((List.range 768).map (p / 768 * 768 + ·)).filter fun q => q != p && c.cool q
  match best (l.filter fun q => q / 192 == p / 192) with
  | some q => some q
  | none => best l
/-- Thermal migration of a core starts, or waits for the swap that runs on its die (R83, R393). -/
def Chip.migrate (e : Env) (c : Chip) (temp : Nat → Nat) (p : Nat) : Chip :=
  match c.coolest temp p with
  | none => c
  | some q =>
    let d := p / 768
    let w : Swap := ⟨c.logical p % 768, c.logical q % 768⟩
    if (c.die d).swap.isSome then c.modDie d fun x => { x with swapNext := x.swapNext ++ [p] } else c.startSwap e d w
/-- The migrations that waited behind a swap start now, each with the pair that is right now (R393). -/
def Chip.migrateNext (e : Env) (c : Chip) (die : Nat) : Chip :=
  (c.die die).swapNext.foldl (fun c p => c.migrate e (fun q => Config.temperature q (e.now / 1250)) p) (c.modDie die fun x => { x with swapNext := [] })
/-- Dirty private lines of a core are written back at once, after its write-backs on their way, and every line but the locked ones leaves
its L1, a line on its way in too; WADDRs that waited there go to the homes (R160, R173, R216, R392). -/
def Chip.emptyL1 (c : Chip) (ck : Nat) (locks : Bool) : Chip :=
  let c := (c.drainWb fun w => w.ck == ck).markStale fun q => !q.host && coreOf q.src == ck
  let c := (c.core ck).l1.foldl (fun c l => match l.kind with | .owned true => c.putKey l.vi l.pa l.data | _ => c) c
  (c.modCore ck fun k => { k with l1 := k.l1.filter fun l => (match l.kind with | .locked _ => locks | _ => false) }).sendWaddrs ck fun _ => true
/-- The locked lines of a core are fetched again from their homes (R326, R392). -/
def Chip.fetchLocked (e : Env) (c : Chip) (ck : Nat) : Chip :=
  let again (l : L1Line) : L1Line := match l.kind with | .locked _ => { l with data := c.lockData e ⟨l.home, l.pa⟩ l.vi } | _ => l
  c.modCore ck fun k => { k with l1 := k.l1.map again }
/-- Contexts of a frozen core on which work has started since, and which have not been asked to stop yet (R83). -/
def Chip.swapLate (c : Chip) (die : Nat) : List Nat :=
  match (c.die die).swap with
  | some w => (c.busyCtxs (die * 768 + w.a) ++ c.busyCtxs (die * 768 + w.b)).filter fun xk =>
      !(c.ctx xk).stopped && !(c.ctx xk).haltSwap && (c.ctx xk).ending.isNone
  | none => []
/-- The swap of a die can end: both cores stand still (R83). -/
def Chip.swapReady (c : Chip) (die : Nat) : Bool :=
  match (c.die die).swap with
  | some w => (c.busyCtxs (die * 768 + w.a) ++ c.busyCtxs (die * 768 + w.b)).all fun xk => (c.ctx xk).stopped || (c.ctx xk).ending.isSome
  | none => false
/-- SWAP_TRANSFER_DONE (R83, R392): the entries are exchanged, and the contexts go on unless another halt holds them. Contexts on
which work has started on a halted core are stopped first. -/
def execSwapTransferDone (die : Nat) (s : State) : Host.Outcome State Fault Refusal :=
  run s fun e c =>
    match (c.die die).swap with
    | none => c
    | some w =>
      if !c.swapReady die then (c.swapLate die).foldl (fun c xk => c.askStop e.now xk fun x => { x with haltSwap := true }) c
      else
        let d := c.die die
        let ka := die * 768 + w.a
        let kb := die * 768 + w.b
        let c := (((c.emptyL1 ka true).emptyL1 kb true).fetchLocked e ka).fetchLocked e kb
        let c := c.modDie die fun d => { d with cmap := (d.cmap.put w.a (d.cmap.get w.b w.b)).put w.b (d.cmap.get w.a w.a), swap := none }
        ((c.busyCtxs ka ++ c.busyCtxs kb).foldl (fun c xk => (c.modCtx xk fun x => { x with haltSwap := false }).unhalt e xk) c).migrateNext e die

/-! ### The scratchpad split (R78, R160) -/

/-- SRSPLIT (R160). -/
def execSrsplit (die : Nat) (value : W64) (s : State) : Host.Outcome State Fault Refusal :=
  run s fun _ c => if value.toNat % 4 = 3 then c else c.modDie die fun d => { d with splitNew := value.toNat % 4, splitPend := true }
/-- A core holds a resident unit (R90). -/
def Chip.hasUnit (c : Chip) (ck : Nat) : Bool := (c.busyCtxs ck).any fun xk => (c.ctx xk).kind == .unit
/-- A pending split can take effect (R160). -/
def Chip.splitReady (c : Chip) (die : Nat) : Bool :=
  (c.die die).splitPend &&
  !(c.ctxs.any fun p => dieOf (coreOf p.1) == die && p.2.st != .idle && p.2.kind == .unit) && !(c.cores.any fun p => dieOf p.1 == die && p.2.hasActor)
/-- SPLIT_EFFECT (R160, R209): the scratchpads become undefined, their lines full, and the L1s empty; loads that an empty line held are
released (R210). -/
def execSplitEffect (die : Nat) (s : State) : Host.Outcome State Fault Refusal :=
  run s fun e c =>
    if !c.splitReady die then c
    else
      let ks := (c.cores.filter fun p => dieOf p.1 == die).map (·.1)
      let c := ks.foldl (fun c ck => (c.emptyL1 ck false).modCore ck fun k => { k with empty := [] }) c
      let c := (c.modDie die fun d => { d with split := d.splitNew, splitPend := false }).mess (sram (die * 768) 0) (768 * 2 ^ 18)
      ks.foldl (fun c ck => c.releaseLoads e.now ck) c

/-! ### The save image (R389) -/

/-- A control register that the image holds: assigned and writable (R389). -/
def imageCr (n : Nat) : Bool := (decide (n < 0x18) || (decide (0x20 ≤ n) && decide (n < 0x2A)) || decide (0x30 ≤ n)) && crAccess n != (1, 1)
/-- The loads of a context that a remote empty line holds (R210, R390). -/
def Chip.heldAway (c : Chip) (part : Nat) : Bool := c.cores.any fun p => p.2.heldLoads.any (·.part == part)
/-- The operations that a save writes as replay entries, in program order (R390). -/
def Chip.saveOps (_c : Chip) (y : Ctx) : List Op :=
  let away : List Op := (y.ops.filter fun o => !o.parts.isEmpty && (match o.kind with | .msg _ => false | _ => true)).map fun (o : Op) =>
    { o with parts := [], refused := o.refused ++ o.parts.map fun p => (⟨p, 0, 0, true⟩ : RPart) }
  let old := y.replay.filter fun o => match o.kind with | .msg _ => false | _ => true
  ((old ++ away).insertionSort (fun (a b : Op) => a.id ≤ b.id)).take 128
/-- The held messages of a context (R347, R390). -/
def Chip.heldMsgs (c : Chip) (t : Nat) : List MuMsg := ((c.core (coreOf t)).msgs.filter fun m => m.xk == t && m.held && !m.inflight && !m.gone).take 32
/-- The outstanding work of a context has come to its end, or to where a save can take it over (R390). -/
def Chip.saveReady (c : Chip) (t : Nat) : Bool :=
  let y := c.ctx t
  let settled : Bool := match y.pend.kind with
    | .none | .lock | .waddr | .save | .load => true
    | _ => y.pend.ans.isSome
  y.ending.isNone && settled && y.toPost.isEmpty && y.repair.isNone &&
  y.ops.all (fun o => match o.kind with
    | .msg _ => true
    | .copy _ | .tile .. | .mma | .mmaEnd .. => false
    | _ => o.parts.all fun p => c.heldAway p.id) &&
  !((c.core (coreOf t)).msgs.any fun m => m.xk == t && m.inflight && !m.gone) && c.canEnd t
/-- A slot of the held messages; a task is marked by bit 63 of its name (log 12). -/
def Chip.msgSlot (c : Chip) (m : Msg) : List Byte :=
  let body := match m.body with
    | .mbox p => p
    | .task t => leBytes 8 t.pc.toNat ++ (t.args.flatMap fun a => leBytes 8 a.toNat) ++ leBytes 8 t.caller ++ leBytes 8 t.cell.toNat
    | .record .. => []
  let d := leBytes 8 (c.msgHeader m) ++ leBytes 8 m.name.toNat ++ body
  d ++ leBytes (256 - d.length) 0
/-- Bytes padded with zeros to a length. -/
def padTo (n : Nat) (d : List Byte) : List Byte := d ++ leBytes (n - d.length) 0
/-- A record of a held lock. -/
def Chip.lockRec (c : Chip) (h : Held) : List Byte :=
  padTo 64 (leBytes 8 h.line.toNat ++ leBytes 8 (if h.lost then 0 else (c.lockEnt h.key).elim 0 (·.deadline)) ++ leBytes 8 (if h.lost then 2 else 1))
/-- The part of the image below the tile registers, and the package that holds the replay entries' keys (R389). -/
def saveImage (e : Env) (c : Chip) (t id : Nat) : Chip × List Byte :=
  let y := c.ctx t
  let ops := c.saveOps y
  let ms := c.heldMsgs t
  let (c', ents) := c.storeReplays ops
  let kind : Nat := match y.kind with | .unit => 0 | .host => 1 | .handler => 2 | .task => 3
  let bound := (List.range 8).foldl (fun n m => n + (if y.tiles.contains m then 2 ^ m else 0)) 0
  let words (l : List Nat) : List Byte := l.flatMap (leBytes 8)
  let hdr := words [1, ctxId c.group t, y.vi + kind * 256, id, ops.length + ms.length * 256 + y.held.length * 2 ^ 16 + bound * 2 ^ 24, 0, 0, 0]
  let xs := words ((List.range 32).map fun n => (y.getX n).toNat)
  let ks := words ((List.range 8).map fun n => (y.getK n).toNat)
  let crs := words ((List.range 0x3C).map fun n => if imageCr n then (readCr e c t n).toNat else 0) ++ words [(readCr e c t 0x042).toNat]
  let vs := (List.range 32).flatMap fun n => vecBytes (y.getV n)
  let sh := match y.shadow with
    | some s => words [1 + bn s.ppriv * 2 + bn s.pend * 4, s.cause.toNat, s.epc.toNat, s.tval.toNat, s.pfx.toNat]
    | none => []
  (c', padTo 0x400 (hdr ++ xs ++ ks ++ crs) ++ padTo 256 (y.held.flatMap c.lockRec) ++ vs ++ padTo 768 sh ++ padTo 16384 ents ++
    padTo 8192 (ms.flatMap fun m => c.msgSlot m.m))
/-- Bytes written to an image as a copy engine does, line by line: the first refusal with its address, and the latest
visibility time (R399). -/
def writeImage (e : Env) (c : Chip) (vi ck : Nat) (a : W64) (d : List Byte) : Chip × Option (Nat × W64) × Nat :=
  (List.range (d.length / 128)).foldl (fun (r : Chip × Option (Nat × W64) × Nat) i =>
    match r with
    | (c, none, t) =>
      let (c, st, t') := writeGlobal e c true vi ck (a + w64 (128 * i)) ((d.drop (128 * i)).take 128)
      (c, if st = 0 then none else some (st, a + w64 (128 * i)), max t t')
    | r => r) (c, none, 0)
/-- Bytes read from an image, line by line: the first refusal with its address (R400). -/
def readImage (e : Env) (c : Chip) (vi ck : Nat) (a : W64) (lines : Nat) : Chip × Except (Nat × W64) (List Byte) :=
  (List.range lines).foldl (fun (r : Chip × Except (Nat × W64) (List Byte)) i =>
    match r with
    | (c, .ok d) => (match readRow e c true vi ck (a + w64 (128 * i)) 128 with
        | .ok (c, d') => (c, .ok (d ++ d'))
        | .error (c, code) => (c, .error (code, a + w64 (128 * i))))
    | r => r) (c, .ok [])
/-- A refused access to an image (R460); one answered RETRY is made again (R383), and so is one whose page was being asked back from its
owner (R173). -/
def imageRefused (e : Env) (c : Chip) (xk code : Nat) (va : W64) : Fate :=
  if code = heldCode then .wait c (.time (e.now + 1))
  else if code = 0x100 then .wait c (.time (e.now + c.coreTicks (coreOf xk) 1024))
  else match c.answered xk code va with
    | .trap code va => .stay (c.trapHere xk code va)
    | f => f

/-! ### CTXSV (R390, R391, R399) -/

/-- A saved context's locks, buffers, messages and loads go where R390 and R391 say, and T is IDLE. -/
def Chip.suspend (c : Chip) (t id : Nat) : Chip :=
  let y := c.ctx t
  let ck := coreOf t
  let key := saveKey ck id
  let c := y.held.foldl (fun c h =>
    if h.lost then c
    else
      let (c, data) := c.dropLocked t h.line
      c.modCore ck fun k => { k with ghosts := k.ghosts ++ [{ w := ⟨h.owner.getD t, h.eid, h.hold, y.vi, h.line⟩, key := h.key, next := h.next, holds := some t, saved := some id, data := data }] }) c
  let c := ((c.ghostWaiting t).withdrawAll t).dropWaddr t
  let out (b : Buf) : Buf := { b with
    creatorS := if b.valid && b.creator == t && b.creatorS.isNone then some key else b.creatorS
    holderS := if b.valid && b.holder == t && b.holderS.isNone then some key else b.holderS }
  let susp (k : Core) : Core := { k with bufs := k.bufs.map (fun q => (q.1, out q.2)), heldLoads := k.heldLoads.filter (fun q => !(y.ops.any fun o => o.parts.any (·.id == q.part))) }
  let c := { c with cores := c.cores.map fun (p : Nat × Core) => (p.1, susp p.2) }
  let c := c.modCore ck fun k => { k with
    saveId := id, saved := k.saved ++ [⟨id, t, { y with ops := [], replay := [], waiting := none, fpNow := 0, pend := if y.pend.ans.isSome && y.pend.kind != .waddr then y.pend else {} }⟩], notices := k.notices.filter fun n => n.ctx ≠ ctxNo t || n.block.isSome }
  let c := match y.unit with
    | some u => (match (c.vi u.u.vi).findCopy u.u t with
        | some (l, n, r) => c.modCopyRec u.u.vi l.order n.idx r.copy fun r => { r with saved := true }
        | none => c)
    | none => c
  c.fallIdle t
/-- CTXSV (R399). -/
def execCtxsv (a : BitVec 5) (s : State) : Host.Outcome State Fault Refusal :=
  run s fun e c => issue e c (.ctxsv a) { x := [a.toNat], mem := true } fun e c xk x =>
    let ad := x.getX a.toNat
    let ck := coreOf xk
    let t := ck * 8 + ad.toNat % 8
    let y := c.ctx t
    let base := w64 (ad.toNat / 4096 * 4096)
    if x.pend.kind = .save then (if x.pend.t ≤ e.now then .retire c else .wait c (.time x.pend.t))
    else if bits ad.toNat 3 9 ≠ 0 ∨ !isGlobal ad then .trap 0x01 ad
    else if t = xk ∨ y.st ≠ .halt ∨ y.vi ≠ x.vi then .trap 0x09 (w64 (ctxNo t))
    else if !c.saveReady t then .wait c (.save t)
    else
      let id := ((c.core ck).saveId + 1) % 65536
      let (c1, img) := saveImage e c t id
      let (c1, r, vt) := writeImage e c1 x.vi ck base img
      let (c1, r, vt) := (y.tiles.insertionSort (· ≤ ·)).foldl (fun (a : Chip × Option (Nat × W64) × Nat) m => match a with
        | (c, none, vt) =>
          let (c, r, t') := writeImage e c x.vi ck (base + w64 (0x7000 + 0x4000 * m)) (rdN e c (tileAt t m) 16384)
          (c, r, max vt t')
        | a => a) (c1, r, vt)
      match r with
      | some (code, va) => imageRefused e c1 xk code va
      | none => .wait ((c1.suspend t id).modCtx xk fun x => { x with pend := { kind := .save, id := c.serial, t := vt } }) (.time vt)

/-! ### CTXLD (R389, R391, R400) -/

/-- The header of an image is well formed for this core (R400): the target, the save, NREP, NMSG and BOUND. -/
def imageHeader (c : Chip) (xk : Nat) (d : List Byte) : Option (Nat × Saved × Nat × Nat × Nat) :=
  let w := wordAt d
  let ck := coreOf xk
  if w 0 ≠ 1 ∨ w 1 / 2 ^ 20 ≠ 0 ∨ bits (w 2) 6 2 ≠ 0 ∨ w 2 / 2 ^ 10 ≠ 0 ∨ w 3 / 2 ^ 16 ≠ 0 ∨ bits (w 4) 14 2 ≠ 0 ∨ bits (w 4) 19 5 ≠ 0 ∨
      w 4 / 2 ^ 32 ≠ 0 ∨ w 5 ≠ 0 ∨ w 6 ≠ 0 ∨ w 7 ≠ 0 then none
  else if w 1 % 2 ^ 17 ≠ coreAddr c.group ck ∨ w 2 % 64 ≠ (c.ctx xk).vi then none
  else ((c.core ck).saved.find? (·.id == w 3)).map fun s => (ck * 8 + bits (w 1) 17 3, s, Nat.min 128 (bits (w 4) 0 8), Nat.min 32 (bits (w 4) 8 6), bits (w 4) 24 8)
/-- The registers and control registers of an image loaded into a context (R389). -/
def loadRegs (c : Chip) (t : Nat) (d : List Byte) : Chip :=
  let w := wordAt d
  let c := c.modCtx t fun x =>
    let x := (List.range 32).foldl (fun x n => x.setX n (w64 (w (8 + n)))) x
    let x := (List.range 8).foldl (fun x n => x.setK n (w64 (w (40 + n)))) x
    (List.range 32).foldl (fun x n => x.setV n (BitVec.ofNat 512 (leNat ((d.drop (0x500 + 64 * n)).take 64)))) x
  let c := (List.range 0x3C).foldl (fun c n => if n ≠ 0 ∧ imageCr n then writeCr c t n (w64 (w (48 + n))) else c) c
  let f := w (0xD00 / 8)
  let sh : Option Shadow := if bit f 0 then some { cause := w64 (w 0x1A1 % 2 ^ 9), epc := w64 (w 0x1A2 / 4 * 4), tval := w64 (w 0x1A3), ppriv := bit f 1, pend := bit f 2, pfx := w64 (w 0x1A4 % 2 ^ 32) } else none
  (writeCr c t 0x042 (w64 (w (0x360 / 8)))).modCtx t fun x => { x with shadow := sh, pendPfx := bit (w 48) 3, ppriv := bit (w 48) 2 }
/-- The locks of a save are reclaimed: those still its own are held again, with their lines fetched from their homes; those that
were broken meanwhile are LOST (R391, R400). A context that CTXLD itself makes full passes the others on as BROKEN (log 94). -/
def Chip.reclaimLocks (e : Env) (c : Chip) (t : Nat) (s : Saved) (d : List Byte) : Chip :=
  let recs := (List.range 4).filterMap fun i => if wordAt d (0x80 + 8 * i + 2) % 4 = 0 then none else some (w64 (wordAt d (0x80 + 8 * i)))
  s.c.held.foldl (fun c h =>
    let room : Bool := recs.contains h.line && decide ((c.ctx t).held.length < 4)
    match (c.core (coreOf t)).ghosts.find? (fun g => g.w.eid == h.eid && g.holds.isSome && g.saved == some s.id) with
    | some g =>
      if room then
        let c := c.modCore (coreOf t) fun k => { k with ghosts := k.ghosts.filter (·.w ≠ g.w) }
        let data := c.lockData e h.key s.c.vi
        let c := if data.isEmpty then c else c.installLocked (coreOf t) ⟨s.c.vi, h.line, h.key.home, h.key.addr, .locked t, data, 3⟩
        c.modCtx t fun x => { x with held := x.held ++ [{ h with next := g.next, owner := some g.w.xk }] }
      else c.pass g.w g.key g.next 1 g.data false false
    | none => if room then c.modCtx t fun x => { x with held := x.held ++ [{ h with lost := true }] } else c) c
/-- The suspended buffers of a save are the context's again (R391, R400). -/
def Chip.reclaimBufs (c : Chip) (t : Nat) (s : Saved) : Chip :=
  let key := saveKey (coreOf t) s.id
  let back (b : Buf) : Buf := { b with
    creator := if b.creatorS = some key then t else b.creator
    holder := if b.holderS = some key then t else b.holder
    creatorS := if b.creatorS = some key then none else b.creatorS
    holderS := if b.holderS = some key then none else b.holderS }
  let bk (k : Core) : Core := { k with bufs := k.bufs.map fun q => (q.1, back q.2) }
  { c with cores := c.cores.map fun (p : Nat × Core) => (p.1, bk p.2) }
/-- The held messages of an image, which are to be sent again (R390, R400). -/
def imageMsgs (vi : Nat) (d : List Byte) (n : Nat) : List (W64 × Body) :=
  (List.range n).map fun i =>
    let m := d.drop (0x5000 + 256 * i)
    let name := w64 (wordAt m 1)
    if bit name.toNat 63 then
      let args := (List.range 6).map fun j => w64 (wordAt m (3 + j))
      (name, .task { ck := addrCore name.toNat, vi := vi, pc := w64 (wordAt m 2), args := args, caller := wordAt m 9, cell := w64 (wordAt m 10) })
    else (name, .mbox ((m.drop 16).take (msgSize (nameSize name))))
/-- The messages of a restored context leave in order, with new sequence numbers, while msg and the message unit have room (R150, R345). -/
def Chip.repost (c : Chip) (t : Nat) : Nat → Chip
  | 0 => c
  | n + 1 =>
    match (c.ctx t).toPost with
    | [] => c
    | (name, b) :: r =>
      if (c.ctx t).cnt .msg < 63 ∧ c.muRoom (coreOf t) name then
        Chip.repost ((c.modCtx t fun x => { x with toPost := r }).post t name (c.addrNode name.toNat) b false) t n
      else c
/-- The operations that an image's replay entries name, under fresh serial numbers (R389, R401). -/
def Chip.freshOps (c : Chip) (xk : Nat) (d : List Byte) (n : Nat) : Chip × List Op :=
  (c.loadReplays (c.ctx xk).vi d n).foldl (fun (a : Chip × List Op) o =>
    let id := a.1.serial
    let c := a.1.next
    let (c, rs) := o.refused.foldl (fun (b : Chip × List RPart) r =>
      let q : Req := { r.p.q with src := xk, op := id, part := b.1.serial }
      (b.1.next, b.2 ++ [{ r with p := ⟨b.1.serial, r.p.off, q⟩, told := true }])) (c, [])
    (c, a.2 ++ [{ o with id := id, parts := [], refused := rs }])) (c, [])
/-- Loading an image into a context whose save is `s` (R400). The trap that the saved state was in is entered by the ERET that enters
that state, where it loads itself (R147). -/
def loadImage (e : Env) (c : Chip) (xk t : Nat) (s : Saved) (nrep nmsg bound : Nat) (d : List Byte) : Chip :=
  let self := t = xk
  let x := c.ctx xk
  let old : Ctx := if self then x else { stamp := (c.ctx t).stamp }
  let p := bit (wordAt d 48) 1
  let keep : Ctx := { s.c with
    held := old.held, pins := old.pins ++ s.c.pins, waiting := none, ops := old.ops, replay := [], stamp := old.stamp + 1, wait := .free, st := .ready, was := .ready,
    haltCtl := false, haltPwr := false, haltSwap := false, stopReq := old.stopReq, fmt := none, fromPfx := false, ending := none, yield := none, idleWake := false,
    pend := if s.c.epc = w64 (wordAt d 50) then s.c.pend else {}, kept := old.kept,
    tiles := (List.range 8).filter (bit bound), inTrap := if self then x.inTrap else s.c.inTrap, nest := if self then x.nest else s.c.nest,
    ldIn := if self then s.c.inTrap else s.c.ldIn, ldNest := if self then s.c.nest else s.c.ldNest, fpNow := 0, replaying := false, upcallDue := false, word := none, priv := if self then x.priv else p }
  let c := c.setCtx t keep
  let c := loadRegs c t d
  let c := (List.range 8).foldl (fun c m => if bit bound m then c.put (tileAt t m) ((d.drop (0x7000 + 0x4000 * m)).take 16384) else c) c
  let c := (c.reclaimLocks e t s d).reclaimBufs t s
  let c := c.modCore (coreOf t) fun k => { k with saved := k.saved.filter (·.id ≠ s.id) }
  let c := match s.c.unit with
    | some u => (match (c.vi u.u.vi).findCopy u.u s.ctx with
        | some (l, n, r) => c.modCopyRec u.u.vi l.order n.idx r.copy fun r => { r with saved := false, xk := t, lastWork := none, samples := [] }
        | none => c)
    | none => c
  let (c, ops) := c.freshOps t (d.drop 0x1000) nrep
  let c := (c.modCtx t fun y => { y with replay := ops, toPost := imageMsgs s.c.vi d nmsg }).repost t nmsg
  if self then c.modCtx t fun y => { y with ppriv := p, ldPC := some y.epc, ldPriv := p, pend := {}, pc := x.pc }
  else c.modCtx t fun y => { y with st := .halt, haltCtl := true, fromPfx := true, pc := y.epc, replayDue := true }
/-- The lines of an image that a load reads: below the tile registers, and the bound ones (R389). -/
def readWhole (e : Env) (c : Chip) (vi ck : Nat) (a : W64) (bound : Nat) : Chip × Except (Nat × W64) (List Byte) :=
  (List.range 8).foldl (fun (r : Chip × Except (Nat × W64) (List Byte)) m =>
    match r with
    | (c, .ok d) =>
      if bit bound m then
        (match readImage e c vi ck (a + w64 (0x7000 + 0x4000 * m)) 128 with
         | (c, .ok d') => (c, .ok (d ++ d'))
         | r => r)
      else (c, .ok (d ++ leBytes 16384 0))
    | r => r) (readImage e c vi ck a 224)
/-- CTXLD (R400): its own retirement keeps SEQSTATE (R282), and ends a loop pass as any other (R145). -/
def execCtxld (a : BitVec 5) (s : State) : Host.Outcome State Fault Refusal :=
  run s fun e c => issue e c (.ctxld a) { x := [a.toNat], mem := true } fun e c xk x =>
    let ad := x.getX a.toNat
    let ck := coreOf xk
    let (after, next) := x.nextPc x.pc
    let done (c : Chip) (self : Bool) : Fate :=
      if next.toNat % 4 ≠ 0 then .trap 0x03 next
      else .stay (c.modCtx xk fun y => { y.retired next with seqValid := y.seqValid, lpc := if self then y.lpc else after.lpc })
    if ad.toNat % 4096 ≠ 0 ∨ !isGlobal ad then .trap 0x01 ad
    else match readImage e c x.vi ck ad 1 with
      | (c, .error (code, va)) => imageRefused e c xk code va
      | (c, .ok h) =>
        match imageHeader c xk h with
        | none => .stay (c.trapHere xk 0x01 ad)
        | some (t, sv, nrep, nmsg, bound) =>
          let used := (List.range 8).foldl (fun n i => n + (c.ctx (ck * 8 + i)).tiles.length) 0
          if t ≠ xk ∧ (c.ctx t).st ≠ .idle then .stay (c.trapHere xk 0x09 (w64 (ctxNo t)))
          else if 8 - used < ((List.range 8).filter (bit bound)).length then .stay (c.trapHere xk 0x0A (tshape 2 0))
          else match readWhole e c x.vi ck ad bound with
            | (c, .error (code, va)) => imageRefused e c xk code va
            | (c, .ok d) => done (loadImage e c xk t sv nrep nmsg bound d) (t == xk)

/-! ### What waits for room or time in a context (R150, R306, R310, R329, R400) -/

/-- A context whose refused accesses, held STREL, skipped LOCK or restored messages wait to leave. -/
def Ctx.waits (x : Ctx) : Bool := x.replaying || !x.toPost.isEmpty || (x.waiting.any (·.unsent)) || x.ops.any (·.hold)
/-- They leave where they can now; a halted context issues no refused access. -/
def Chip.drainCtx (e : Env) (c : Chip) (xk : Nat) : Chip :=
  let c := ((c.sendReady e.now xk).requeue e xk).repost xk (c.ctx xk).toPost.length
  let x := c.ctx xk
  if x.replaying && x.st != .halt && !(x.replay.any fun o => o.refused.any fun r => !r.told) then c.replayNext e xk (x.replay.length + 1) else c
/-- The STRELs that the ends of their contexts have left on a core leave, once their release conditions hold (R292, R310, log 105). -/
def Chip.drainLate (now : Nat) (c : Chip) (ck : Nat) : Chip :=
  let ready (w : LateRel) (s : Nat) : Bool := w.stores.isEmpty && (decide (s < 3) || decide (w.vis ≤ now))
  (c.core ck).late.foldl (fun c w => match w.q.act with
    | .strel s _ => if ready w s then
        (c.modCore ck fun k => { k with late := k.late.filter (·.q.part ≠ w.q.part) }).sendOrdered w.q.src { w.q with act := .strel s w.vis } s
      else c
    | _ => c) c
/-- They leave in every context and on every core. -/
def Chip.drain (e : Env) (c : Chip) : Chip :=
  (c.cores.filter fun p => !p.2.late.isEmpty).foldl (fun c p => c.drainLate e.now p.1)
    ((c.ctxs.filter fun p => p.2.waits).foldl (fun c p => c.drainCtx e p.1) c)

/-! ### FLTACK (R401) -/

/-- FLTACK (R401). -/
def execFltack (a : BitVec 5) (s : State) : Host.Outcome State Fault Refusal :=
  run s fun e c => issue e c (.fltack a) { x := [a.toNat], mem := true } fun e c xk x =>
    let ad := x.getX a.toNat
    let ck := coreOf xk
    let off := ad.toNat % 2 ^ 18
    let wd (o : Nat) : Nat := leNat (rdN e c (sram ck (off + o)) 8)
    if !permOk ad || !permOk (ad + 16511) || space (ad + 16511) ≠ space ad then .trap 0x09 ad
    else if ad.toNat % 128 ≠ 0 then .trap 0x05 ad
    else if !c.inRun xk ad 16512 then .trap 0x06 ad
    else
      let counts := wd 0x30
      let info := wd 0x20
      let nrep := bits counts 0 8
      let npf := bits counts 8 8
      if counts / 2 ^ 16 ≠ 0 ∨ info / 2 ^ 41 ≠ 0 ∨ wd 0x38 / 2 ^ 17 ≠ 0 ∨ 128 < nrep ∨ nrep < npf then .trap 0x01 ad
      else if bits (wd 0x38) 0 16 < npf then .wait c (.notices off npf)
      else
        let (c, ops) := c.freshOps xk (rdN e c (sram ck (off + 0x80)) (128 * nrep)) nrep
        let rpc := w64 (wd 0x10)
        let c := c.modCtx xk fun y => { (y.setX 31 (w64 (wd 0x28))) with replay := y.replay ++ ops, inUpcall := false }
        if bit (wd 0x38) 16 then
          let c := c.trap xk true 0x08 rpc (w64 (wd 0x18))
          .stay (c.modCtx xk fun y => if bit info 40 then { y with pendPfx := true, pfxsave := w64 (info % 2 ^ 32) } else y)
        else
          let c := c.modCtx xk fun y =>
            let y := if bit info 40 then { y with pendPfx := true, pfxsave := w64 (info % 2 ^ 32) } else y
            { (y.leaveLoops rpc).retired rpc with fromPfx := true }
          .stay (c.replayAll e xk)

end Sys2Proof.Machine
end

