-- ==== Sys2Proof/Machine/Work.lean ====
section
/-! DEFINITION. Work queues, their entries and records, host active messages, placement of units, descriptors, pins and entry
of a unit (R13 to R22, R29, R30, R34 to R59, R78, R84 to R92, R98, R461). -/
namespace Sys2Proof.Machine
open Sys2Proof

/-! ### Access of an engine of a die (R39, R53, R54) -/

/-- An engine's place for a global line: package, home, physical address; none where it faults. No core is near it (R168). -/
def Chip.enginePlace (e : Env) (c : Chip) (vi : Nat) (a : W64) (need : Nat) : Option (Chip × Nat × Nat) :=
  if isGlobal a then (match c.reach e vi a need none none with | .ok r => some r | .error _ => none) else none
/-- Bytes of one line read by an engine. -/
def Chip.engineRead (e : Env) (c : Chip) (vi : Nat) (a : W64) (n : Nat) : Option (Chip × List Byte) :=
  (c.enginePlace e vi a 0).bind fun (c, h, pa) =>
    if c.badAt pa n then none else some (c, if h = bridgeNode then rdN e c pa n else c.homeRead e vi pa n)
/-- Bytes of one line written by an engine; none where its line cannot be translated or holds an uncorrectable error. -/
def Chip.engineWrite (e : Env) (c : Chip) (vi : Nat) (a : W64) (d : List Byte) : Option Chip :=
  (c.enginePlace e vi a 1).bind fun (c, h, pa) =>
    if c.badAt pa d.length then none else some (if h = bridgeNode then (c.noteWrite unitWriter e.now pa d.length).put pa d else c.homeWrite e unitWriter h vi pa d)

/-- The access of an engine meets a page that its owner is giving back, and is held (R173). -/
def Chip.engineHeld (e : Env) (c : Chip) (vi : Nat) (a : W64) (need : Nat) : Bool :=
  isGlobal a && (match c.reach e vi a need none none with | .error err => err.1 == heldCode | .ok _ => false)

/-! ### Queue registers and pointers (R38 to R42) -/

/-- Entries of the ring. -/
def Queue.size (q : Queue) : Nat := 2 ^ (q.qsz + 6)
/-- Records of the completion ring. -/
def Queue.csize (q : Queue) : Nat := 2 ^ (q.csz + 6)
/-- The completion ring has a free record (R57). -/
def Queue.room (q : Queue) : Bool := (q.chead + BitVec.ofNat 32 q.csize - q.ctail) != 0
/-- The queue stops with a code (R42, R54, R461). -/
def Queue.stopWith (q : Queue) (code : Nat) : Queue := { q with en := false, err := code }.settleRun
/-- Writes of the host are still on their way to their homes, or held at a translation home, or are pointers on their way to a queue
engine (R34, R173). -/
def Chip.hostWrites (c : Chip) : Bool :=
  let w (q : Req) : Bool := q.host && (match q.act with | .store => true | _ => false)
  (c.net.any fun f => match f.ev with | .translate q | .storeRequest q | .faultRetry q => w q | .qtail .. | .qchead .. => true | _ => false) ||
    c.dies.any fun d => d.2.reclass.any fun r => r.reqs.any w
/-- A pointer write is forwarded once the host's earlier writes have been performed (R34, R40). -/
def pointerWrite (c : Chip) (vi slot : Nat) (again : Ev) (f : Nat → Ev) : Chip :=
  if c.hostWrites then { c with inputs := again :: c.inputs }
  else match c.slotQueue vi slot with
    | some q => c.send bridgeNode (dispNode (q / 512)) .ctl (f q)
    | none => c
/-- TAILW (R34, R40). -/
def execTailw (vi slot : Nat) (value : W64) (s : State) : Host.Outcome State Fault Refusal :=
  run s fun _ c => pointerWrite c vi slot (.tailw vi slot value) fun q => .qtail q (value.toNat % 2 ^ 32)
/-- CHEADW (R34, R40). -/
def execCheadw (vi slot : Nat) (value : W64) (s : State) : Host.Outcome State Fault Refusal :=
  run s fun _ c => pointerWrite c vi slot (.cheadw vi slot value) fun q => .qchead q (value.toNat % 2 ^ 32)
/-- QTAIL (R42). -/
def execQtail (queue tail : Nat) (s : State) : Host.Outcome State Fault Refusal :=
  run s fun _ c => c.modQueue queue fun k =>
    let t := BitVec.ofNat 32 tail
    if !k.en then k
    else if (t - k.qhead).toNat ≤ k.size ∧ (t - k.qtail).toNat < 2 ^ 31 then { k with qtail := t }
    else k.stopWith 0x29
/-- QCHEAD (R42). -/
def execQchead (queue head : Nat) (s : State) : Host.Outcome State Fault Refusal :=
  run s fun _ c => c.modQueue queue fun k => if k.en || k.run then { k with chead := BitVec.ofNat 32 head } else k
/-- QCTL written: the fields, then EN with the checks of R41. A fence of an earlier enabling holds no entry of the new ring. -/
def Queue.setCtl (q : Queue) (v : Nat) : Queue :=
  let k := if q.en || q.run then q else { q with csz := bits v 16 4, qsz := bits v 12 4, pmax := bits v 8 3, vi := bits v 2 6 }
  if bit v 0 && !q.en then
    (if q.run then q
     else if 10 < k.csz ∨ 10 < k.qsz ∨ k.qbase.toNat % 64 ≠ 0 ∨ k.cbase.toNat % 16 ≠ 0 then { k with err := 0x2A }
     else { k with en := true, run := true, err := 0, qhead := 0, qtail := 0, ctail := 0, chead := 0, fence := none, vis := 0, stores := [] })
  else if !bit v 0 && q.en then { k with en := false }.settleRun
  else k
/-- QCTL (R41). -/
def execQctl (queue : Nat) (value : W64) (s : State) : Host.Outcome State Fault Refusal :=
  run s fun _ c => c.modQueue queue (·.setCtl value.toNat)

/-! ### Taking entries (R43, R46, R47, R53, R54) -/

/-- The engine may take the queue's next entry (R37, R43, R57). -/
def Chip.queueReady (c : Chip) (q : Nat) : Bool :=
  let k := c.queue q
  k.en && k.fence.isNone && k.hm.isNone && k.qhead != k.qtail && k.room && (c.vi k.vi).en && (c.vi k.vi).keyv
/-- The address of the queue's next entry. -/
def Queue.entryVa (k : Queue) : W64 := k.qbase + w64 (64 * (k.qhead.toNat % k.size))
/-- The queue's next entry, or none where it cannot be read. -/
def Chip.entryAt (e : Env) (c : Chip) (q : Nat) : Option (Chip × List Byte) :=
  c.engineRead e (c.queue q).vi (c.queue q).entryVa 64
/-- The engine waits at the queue's next entry for a page that holds one of its reads, and asks for the page (R173). -/
def Chip.waitEntry (e : Env) (c : Chip) (q : Nat) (a : W64) : Chip :=
  (c.askPage e (c.queue q).vi a 0).modQueue q fun k => { k with qhead := k.qhead - 1 }
/-- OPC. -/
def eOpc (d : List Byte) : Nat := field d 0 8
/-- CPL. -/
def eCpl (d : List Byte) : Bool := field d 8 1 == 1
/-- TAG. -/
def eTag (d : List Byte) : Nat := field d 32 32
/-- A 64-byte or longer structure has no bit set outside the fields. -/
def onlyFields (d : List Byte) (l : List (Nat × Nat)) : Bool :=
  leNat d == l.foldl (fun n p => n + field d p.1 p.2 * 2 ^ p.1) 0
/-- The fields of the first word of an entry (R46). -/
def eHead : List (Nat × Nat) := [(0, 8), (8, 1), (32, 32)]
/-- A record that the queue owes. -/
def Chip.owe (c : Chip) (q : Nat) (o : Owed) : Chip := c.modQueue q fun k => { k with owed := k.owed ++ [o] }.settleRun
/-- An entry accepted and not complete, with the interface it was taken for. -/
def Chip.pendEntry (c : Chip) (q : Nat) (x : Entry) : Chip := c.modQueue q fun k => { k with open_ := k.open_ ++ [(k.vi, x)] }.settleRun
/-- The record of a rejection (R53, R55). -/
def Chip.rejectEntry (c : Chip) (q : Nat) (d : List Byte) (code value : Nat) : Chip :=
  c.owe q { opc := eOpc d, status := code, tag := eTag d, value := w64 value }
/-- The next entry is taken when it has this OPC and no reserved bit set. -/
def Chip.takeEntry (e : Env) (c : Chip) (q opc : Nat) (fs : List (Nat × Nat)) (f : Chip → Queue → List Byte → Chip) : Chip :=
  if !c.queueReady q then c
  else match c.entryAt e q with
    | none => c
    | some (c, d) =>
      if eOpc d ≠ opc then c
      else
        let c := c.modQueue q fun k => { k with qhead := k.qhead + 1 }
        if onlyFields d (eHead ++ fs) then f c (c.queue q) d else c.rejectEntry q d 0x21 (if opc = 3 then field d 160 32 else 0)
/-- BADOP (R53). -/
def execBadop (queue : Nat) (s : State) : Host.Outcome State Fault Refusal :=
  run s fun e c =>
    if !c.queueReady queue then c
    else match c.entryAt e queue with
      | none => c
      | some (c, d) => if 1 ≤ eOpc d ∧ eOpc d ≤ 5 then c else (c.modQueue queue fun k => { k with qhead := k.qhead + 1 }).rejectEntry queue d 0x20 0
/-- ENTRY_UNREADABLE (R54); an entry in a page that its owner is giving back is waited for (R173). -/
def execEntryUnreadable (queue : Nat) (s : State) : Host.Outcome State Fault Refusal :=
  run s fun e c =>
    let k := c.queue queue
    if c.queueReady queue && (c.entryAt e queue).isNone then
      (if c.engineHeld e k.vi k.entryVa 0 then c.askPage e k.vi k.entryVa 0 else c.modQueue queue (·.stopWith 0x22))
    else c

/-! ### Accepting launches (R14 to R18, R44, R45, R49) -/

/-- The fields of a launch record that are not reserved (R14). -/
def launchFields : List (Nat × Nat) :=
  [(576, 64), (544, 32), (512, 32), (480, 32), (448, 32), (416, 32), (384, 32), (320, 52), (256, 52), (192, 52), (152, 6), (148, 3), (144, 3),
   (132, 9), (128, 4), (96, 16), (80, 16), (64, 16), (32, 32), (0, 32)]
/-- A launch is accepted into a level: a new one takes the id where none is live (R49, R51). -/
def Vi.joinLevel (v : Vi) (kind id q : Nat) : Vi :=
  if id = 0 then v
  else if v.liveLevel kind id then { v with levels := updFirst (fun l => l.kind == kind && l.id == id && !l.complete) (fun l => { l with members := l.members + 1 }) v.levels }
  else
    let old (l : Launch) : Launch := if kind = 1 ∧ l.graph = id then { l with graph := 0 } else l
    { v with launches := v.launches.map old, levels := v.levels.filter (fun l => !(l.kind == kind && l.id == id)) ++ [{ kind := kind, id := id, queue := q, members := 1 }] }
/-- A level that is closed and not complete. -/
def Vi.closedLevel (v : Vi) (kind id : Nat) : Bool := v.levels.any fun l => l.kind == kind && l.id == id && l.closed && !l.complete
/-- The checks of R18 on a record, but for the descriptor that the GANG check reads. A predecessor is a launch of the live graph
of that name: the record of a completed graph's launch is kept no longer (R17). -/
def launchCheck (v : Vi) (d : List Byte) : Option Nat :=
  let f := field d
  let graph := f 32 32
  let np := f 148 3
  let preds := (List.range np).map fun i => f (384 + 32 * i) 32
  if !onlyFields d launchFields then some 0x01
  else if !(isGlobal (w64 (f 192 52)) && f 192 52 % 4 == 0 && isGlobal (w64 (f 256 52)) && f 256 52 % 64 == 0 && isGlobal (w64 (f 320 52)) && f 320 52 % 128 == 0) then some 0x02
  else if 2 ^ 24 < (f 64 16 + 1) * (f 80 16 + 1) * (f 96 16 + 1) then some 0x03
  else if 8 < f 128 4 ∨ 256 < f 132 9 then some 0x04
  else if 4 < np ∨ (np ≠ 0 ∧ graph = 0) then some 0x05
  else if preds.any (fun p => !(v.liveLevel 1 graph && v.launches.any fun l => l.lid == p && l.graph == graph)) then some 0x06
  else if f 0 32 = 0 ∨ v.launches.any (fun l => l.lid == f 0 32 && l.st != .complete) then some 0x07
  else none
/-- A launch record is read, checked and accepted, or the code and LAUNCHID of its rejection (R15, R18, R53); `heldCode` and the address
where a page holds a read. `gid` is the GRAPHID that a GRAPH entry asks for. -/
def Chip.acceptLaunch (e : Env) (c : Chip) (q : Nat) (a : W64) (gid : Option Nat) : Except (Nat × Nat) (Chip × Nat × Nat) :=
  let k := c.queue q
  match c.enginePlace e k.vi a 0 with
  | none => if c.engineHeld e k.vi a 0 then .error (heldCode, a.toNat) else .error (0x22, 0)
  | some (c, h, pa) =>
    if c.badAt pa 128 then .error (0x22, 0) else
    let d := if h = bridgeNode then rdN e c pa 128 else c.homeRead e k.vi pa 128
    let f := field d
    let lid := f 0 32
    let v := c.vi k.vi
    let geom := f 576 64
    let total := (f 64 16 + 1) * (f 80 16 + 1) * (f 96 16 + 1)
    match launchCheck v d with
    | some code => .error (code, lid)
    | none =>
      match c.engineRead e k.vi (w64 (f 256 52)) 64 with
      | none => if c.engineHeld e k.vi (w64 (f 256 52)) 0 then .error (heldCode, f 256 52) else .error (0x22, lid)
      | some (c, u) =>
        let gang := field u 116 1 == 1
        if gang && decide (36864 < total) then .error (0x08, lid)
        else if bits geom 0 12 = 0 ∨ bits geom 12 12 = 0 then .error (0x09, lid)
        else if v.closedLevel 1 (f 32 32) || v.closedLevel 2 (f 512 32) || v.closedLevel 3 (f 544 32) then .error (0x23, lid)
        else if v.levels.any (fun l => l.kind == 1 && l.id == f 32 32 && !l.complete && l.queue != q) then .error (0x28, lid)
        else if gid.any (· != f 32 32) then .error (0x26, lid)
        else
          let order := c.serial
          let tag (c : Chip) : Chip := if h = bridgeNode then c.put (pa + 19) [BitVec.ofNat 8 k.vi] else c.homeWrite e unitWriter h k.vi (pa + 19) [BitVec.ofNat 8 k.vi]
          let l : Launch := {
            vi := k.vi, lid := lid, graph := f 32 32, phase := f 512 32, job := f 544 32, geom := w64 geom, tilebase := w64 (f 320 52), udbase := w64 (f 256 52),
            codebase := w64 (f 192 52), preds := (List.range (f 148 3)).map (fun i => f (384 + 32 * i) 32), prio := Nat.min (f 144 3) k.pmax, spkib := f 132 9,
            ntile := f 128 4, gx := f 64 16, gy := f 80 16, gz := f 96 16, gang := gang, queue := q, home := q / 512, when_ := e.now, order := order, st := .blocked }
          let c := (tag c).next.modVi k.vi fun v =>
            let v := ((v.joinLevel 1 l.graph q).joinLevel 2 l.phase q).joinLevel 3 l.job q
            let forget (m : Launch) : Launch := if m.lid = lid then { m with remembered := false } else m
            let v := { v with launches := v.launches.map forget ++ [l] }
            let start (m : Launch) : Launch := if m.order = order && v.predsDone m then { m with st := .eligible } else m
            { v with launches := v.launches.map start }
          .ok (c, order, lid)
/-- A launch that has been accepted is cancelled with a predecessor that was cancelled before it (R17). -/
def Chip.cancelDead (e : Env) (c : Chip) (vi order : Nat) : Chip :=
  match c.launch? vi order with
  | some l => if l.preds.any fun p => ((c.vi vi).pred l p).any (·.cancelled) then c.cancelLaunches e vi [order] else c
  | none => c
/-- LAUNCH (R48). -/
def execQLaunch (queue : Nat) (s : State) : Host.Outcome State Fault Refusal :=
  run s fun e c => c.takeEntry e queue 1 [(64, 52)] fun c _ d =>
    if field d 64 52 % 128 ≠ 0 then c.rejectEntry queue d 0x27 0
    else match c.acceptLaunch e queue (w64 (field d 64 52)) none with
      | .error (code, lid) => if code = heldCode then c.waitEntry e queue (w64 lid) else c.rejectEntry queue d code lid
      | .ok (c, o, lid) => (c.pendEntry queue (.launch o lid (eTag d) (eCpl d))).cancelDead e (c.queue queue).vi o
/-- The records of a GRAPH entry, in array order: the package, and the index and code of the one that is rejected, the address for one
that a page holds (R49, R173). -/
def graphRecords (e : Env) (c : Chip) (q : Nat) (a : W64) (gid tag : Nat) : Nat → Nat → Chip × Option (Nat × Nat)
  | 0, _ => (c, none)
  | n + 1, i =>
    match c.acceptLaunch e q (a + w64 (128 * i)) (some gid) with
    | .error (code, at_) => (c, some (if code = heldCode then at_ else i, code))
    | .ok (c, o, lid) => graphRecords e ((c.pendEntry q (.launch o lid tag false)).cancelDead e (c.queue q).vi o) q a gid tag n (i + 1)
/-- GRAPH (R49). -/
def execQGraph (queue : Nat) (s : State) : Host.Outcome State Fault Refusal :=
  run s fun e c => c.takeEntry e queue 2 [(64, 52), (160, 32), (144, 16), (136, 2), (128, 1)] fun c k d =>
    let n := field d 144 16
    let level := field d 136 2
    let close := field d 128 1 == 1
    let gid := field d 160 32
    if level = 0 ∨ (n ≠ 0 ∧ level ≠ 1) ∨ (level ≠ 1 ∧ !close) ∨ (n ≠ 0 ∧ field d 64 52 % 128 ≠ 0) then c.rejectEntry queue d 0x27 0
    else match graphRecords e c queue (w64 (field d 64 52)) gid (eTag d) n 0 with
      | (c', some (i, code)) => if code = heldCode then c.waitEntry e queue (w64 i) else c'.rejectEntry queue d code i
      | (c, none) =>
        if (close || decide (n = 0)) && !(c.vi k.vi).liveLevel level gid then c.rejectEntry queue d 0x24 0
        else if !close then (if eCpl d then c.owe queue { opc := 2, status := 0, tag := eTag d, value := w64 gid } else c)
        else
          let c := c.modVi k.vi fun v => { v with levels := updFirst (fun l => l.kind == level && l.id == gid && !l.complete) (fun l => { l with closed := true }) v.levels }
          (c.pendEntry queue (.level level gid (eTag d) (eCpl d))).tryLevel k.vi level gid
/-- CANCEL (R50, R51). -/
def execQCancel (queue : Nat) (s : State) : Host.Outcome State Fault Refusal :=
  run s fun e c => c.takeEntry e queue 3 [(160, 32), (136, 2)] fun c k d =>
    let level := field d 136 2
    let n := field d 160 32
    let v := c.vi k.vi
    if v.liveLevel level n then (c.pendEntry queue (.cancel level n (eTag d) (eCpl d))).cancelLevel e k.vi level n
    else if v.knows level n then (if eCpl d then c.owe queue { opc := 3, status := 0, tag := eTag d, value := w64 n } else c)
    else c.rejectEntry queue d 0x24 n
/-- QFENCE (R52): taken, and complete once every earlier entry of the queue is; its record waits for the writes of all their work (R57). -/
def execQfence (queue : Nat) (s : State) : Host.Outcome State Fault Refusal :=
  run s fun e c =>
    let finish (c : Chip) (tag : Nat) (cpl : Bool) : Chip :=
      let c := c.modQueue queue fun k => { k with fence := none }.settleRun
      if cpl then c.owe queue { opc := 5, status := 0, tag := tag, value := 0, at_ := (c.queue queue).vis, stores := (c.queue queue).stores } else c
    match (c.queue queue).fence with
    | some (tag, cpl) => if (c.queue queue).open_.isEmpty then finish c tag cpl else c
    | none => c.takeEntry e queue 5 [] fun c k d =>
        if k.open_.isEmpty then finish c (eTag d) (eCpl d) else c.modQueue queue fun k => { k with fence := some (eTag d, eCpl d) }.settleRun

/-! ### Host active messages (R58, R59) -/

/-- HMSG (R47, R53, R58): the message goes straight to its core; the queue waits for it to be taken. -/
def execHmsgEntry (queue : Nat) (s : State) : Host.Outcome State Fault Refusal :=
  run s fun e c => c.takeEntry e queue 4 [(64, 52), (138, 3), (136, 2), (128, 8), (192, 64), (256, 64)] fun c k d =>
    let pc := w64 (field d 64 52)
    if pc.toNat % 4 ≠ 0 ∨ !isGlobal pc then c.rejectEntry queue d 0x27 0
    else if 191 < field d 128 8 then c.rejectEntry queue d 0x25 0
    else
      let ck := field d 138 3 * 768 + field d 136 2 * 192 + field d 128 8
      let m : HostMsg := { q := queue, serial := c.serial, ck := ck, vi := k.vi, pc := pc, a0 := w64 (field d 192 64), a1 := w64 (field d 256 64) }
      let c := (c.next.pendEntry queue (.hmsg m.serial (eTag d) (eCpl d))).modQueue queue fun k => { k with hm := some m }
      c.send (dispNode (queue / 512)) (coreNode ck) .msg (.hmsgDelivery m)
/-- HMSG_DELIVERY (R58): it starts on an idle general context, waits in a slot, or is refused for 256 cycles. -/
def execHmsgDelivery (m : HostMsg) (s : State) : Host.Outcome State Fault Refusal :=
  run s fun e c =>
    let took (c : Chip) : Chip := (c.wakeIdle m.ck).modQueue m.q fun k => { k with hm := none }.settleRun
    let again : Chip := c.send (coreNode m.ck) (dispNode (m.q / 512)) .rsp (.hmsgRetry m) (e.now + retryTicks)
    if c.isOff m.ck then again
    else match c.idleGeneral m.ck with
      | some xk => took (c.hostStart xk m)
      | none => if (c.core m.ck).hslots.length < 4 then took (c.modCore m.ck fun k => { k with hslots := k.hslots ++ [m] }) else again
/-- HMSG_RETRY (R58): the queue engine offers the message again. -/
def execHmsgRetry (m : HostMsg) (s : State) : Host.Outcome State Fault Refusal :=
  run s fun _ c => if (c.queue m.q).hm = some m then c.send (dispNode (m.q / 512)) (coreNode m.ck) .msg (.hmsgDelivery m) else c

/-! ### Completion records (R55 to R57, R361, R461) -/

/-- The 16 bytes of a record. -/
def recordBytes (k : Queue) (o : Owed) : List Byte :=
  leBytes 8 (o.tag % 2 ^ 32 * 2 ^ 32 + (1 - k.ctail.toNat / k.csize % 2) * 2 ^ 31 + o.status * 256 + o.opc) ++ leBytes 8 o.value.toNat
/-- The address of the queue's next record. -/
def Queue.recordVa (k : Queue) : W64 := k.cbase + w64 (16 * (k.ctail.toNat % k.csize))
/-- The record that the queue can write now, and the package after it was written; none where its write faults. -/
def Chip.writeRecord (e : Env) (c : Chip) (q : Nat) : Option (Owed × Option Chip) :=
  let k := c.queue q
  match k.owed with
  | [] => none
  | o :: _ =>
    if e.now < o.at_ || !o.stores.isEmpty || k.err != 0x2B && !k.room then none
    else if k.err = 0x2B then some (o, none)
    else some (o, c.engineWrite e k.vi k.recordVa (recordBytes k o))
/-- The sender of an HMSG record is answered (R361). -/
def Chip.recordDone (c : Chip) (o : Owed) : Chip :=
  match o.msg with
  | some (src, id) => (match (c.unitMsgs src).find? (·.m.id == id) with | some y => c.answerMsg y.m 0 | none => c)
  | none => c
/-- COMPLETION_RECORD (R55 to R57). -/
def execCompletionRecord (queue : Nat) (s : State) : Host.Outcome State Fault Refusal :=
  run s fun e c => match c.writeRecord e queue with
    | some (o, some c) => (c.modQueue queue fun k => { k with owed := k.owed.tail, ctail := k.ctail + 1 }.settleRun).recordDone o
    | _ => c
/-- CWRITE (R461): the record cannot be written; it and every later one are discarded. A record that a page holds waits for it (R173). -/
def execCwrite (queue : Nat) (s : State) : Host.Outcome State Fault Refusal :=
  run s fun e c => match c.writeRecord e queue with
    | some (_, none) =>
      let k := c.queue queue
      if k.err ≠ 0x2B ∧ c.engineHeld e k.vi k.recordVa 1 then c.askPage e k.vi k.recordVa 1
      else (c.queue queue).owed.foldl Chip.recordDone (c.modQueue queue fun k => { k with owed := [] }.stopWith 0x2B)
    | _ => c

/-! ### Resources of a die (R78, R84, R89) -/

/-- Blocks of 64 units. -/
def Launch.blocks (l : Launch) : Nat := (l.total + 63) / 64
/-- The die of a block. -/
def Launch.blockDie (l : Launch) (k : Nat) : Nat := l.moved.get ((l.home + k) % 8) k
/-- Units of a block that have left QUEUED. -/
def Launch.taken (l : Launch) (k : Nat) : Nat := l.nextIn.get 0 k
/-- Units of a block. -/
def Launch.blockLen (l : Launch) (k : Nat) : Nat := Nat.min 64 (l.total - 64 * k)
/-- The next queued unit of a launch on a die. -/
def Launch.nextUnit (l : Launch) (die : Nat) : Option Nat :=
  (List.range l.blocks).findSome? fun k => if l.blockDie k = die ∧ l.taken k < l.blockLen k then some (64 * k + l.taken k) else none
/-- Some unit is QUEUED. -/
def Launch.anyQueued (l : Launch) : Bool := (List.range l.blocks).any fun k => decide (l.taken k < l.blockLen k)
/-- Acceptance order in the package (R84). -/
def Launch.before (l m : Launch) : Bool :=
  l.when_ < m.when_ || (l.when_ == m.when_ && (l.queue < m.queue || (l.queue == m.queue && l.order < m.order)))
/-- Every launch of the package. -/
def Chip.launches (c : Chip) : List Launch := c.vis.flatMap fun p => p.2.launches
/-- The oldest launch of a list. -/
def oldest (l : List Launch) : Option Launch :=
  l.foldl (fun (a : Option Launch) m => match a with | none => some m | some b => if m.before b then some m else a) none
/-- Tile registers of a core that no copy has reserved (R78, R267). -/
def Chip.tilesFree (c : Chip) (ck : Nat) : Nat :=
  8 - (c.launches.flatMap fun l => l.units.flatMap fun u => u.copies.filter fun r => coreOf r.xk == ck && r.live && r.dev.isNone).foldl (fun n r => n + r.ntile) 0
/-- The lowest run of `n` free granules (R78). -/
def Chip.firstFit (c : Chip) (ck n : Nat) : Option Nat :=
  if n = 0 then some 0 else (List.range 64).find? fun g => (List.range n).all fun i => c.granuleFree ck (g + i)
/-- What a core can give to a unit: a context and a run (R78, R89, R354, R405); nothing while its clock hops (R406). -/
def Chip.coreTakes (c : Chip) (ck ntile n : Nat) : Option (Nat × Nat) :=
  let k := c.core ck
  let idle := ((List.range 6).map (ck * 8 + ·)).filter fun xk => (c.ctx xk).free
  if c.isOff ck || c.frozen ck || c.hopping ck || decide (idle.length ≤ k.hslots.length + k.tasks.length) || decide (c.tilesFree ck < ntile) then none
  else match idle, c.firstFit ck n with
    | xk :: _, some g => some (xk, g * 4096)
    | _, _ => none
/-- Granules of a unit (R78). -/
def Launch.granules (l : Launch) : Nat := (l.spkib + 3) / 4
/-- The first core of a die from its pointer on that can take a unit of the launch (R89). -/
def Chip.chooseCore (c : Chip) (die : Nat) (l : Launch) (ok : Nat → Bool) : Option (Nat × Nat) :=
  (List.range 768).findSome? fun i =>
    let ck := die * 768 + ((c.die die).ptr + i) % 768
    if ok ck then c.coreTakes ck l.ntile l.granules else none
/-- A copy reserves what it needs and enters PLACING (R89); every line of its run becomes full (R209). -/
def Chip.reserveFor (now : Nat) (c : Chip) (l : Launch) (idx copy die xk base : Nat) : Chip :=
  let r : CopyRec := { copy := copy, die := die, xk := xk, st := .placing, base := base, len := l.granules * 4096, ntile := l.ntile }
  let c := ((c.fillLines now (coreOf xk) base (l.granules * 4096)).modCtx xk fun x => { x with resv := true }).modDie die fun d => { d with ptr := (coreOf xk % 768 + 1) % 768 }
  c.modLaunch l.vi l.order fun m =>
    { m with units := if m.units.any (·.idx == idx) then updFirst (·.idx == idx) (fun u => { u with copies := u.copies ++ [r] }) m.units
                      else m.units ++ [{ idx := idx, copies := [r] }] }
/-- A unit leaves QUEUED; a launch with no unit QUEUED is PLACED (R85). -/
def Chip.leaveQueued (c : Chip) (l : Launch) (idx : Nat) : Chip :=
  c.modLaunch l.vi l.order fun m =>
    let m := { m with nextIn := m.nextIn.put (idx / 64) (m.taken (idx / 64) + 1) }
    if m.st == .eligible && !m.anyQueued then { m with st := .placed } else m

/-! ### Descriptors, pins and the start of a unit (R19, R20, R22, R29, R30, R89) -/

/-- Line offset of input slot `i`, and the version to pin. -/
def UnitRec.slot (u : UnitRec) (i : Nat) : Nat × Nat := (field u.snap (192 + 64 * i) 32, field u.snap (224 + 64 * i) 32)
/-- The input slots that are present. -/
def UnitRec.present (u : UnitRec) : List Nat := (List.range 4).filter fun i => (u.slot i).1 != 0xFFFFFFFF
/-- Fields of a descriptor that are not reserved. -/
def descFields : List (Nat × Nat) := [(0, 112), (115, 397)]
/-- A descriptor obeys R22. -/
def descOk (l : Launch) (idx : Nat) (d : List Byte) : Bool :=
  field d 32 32 == l.lid && field d 64 16 == l.ux idx && field d 80 16 == l.uy idx && field d 96 16 == l.uz idx && field d 118 2 == 0 &&
  field d 112 3 == 0 && (field d 116 1 == 1) == l.gang && (field d 115 1 == 1 || field d 128 32 != 0xFFFFFFFF)
/-- A unit enters RESIDENT: its context starts with the state of R30. -/
def Chip.startUnit (e : Env) (c : Chip) (l : Launch) (u : UnitRec) (r : CopyRec) : Chip :=
  let f := field u.snap
  let head := l.tilebase + w64 (128 * u.resoff)
  let inputs := (List.range 4).map fun i => (10 + i, ((r.pins.find? (·.1 == i)).elim 0 fun p => p.2.buf))
  let regs := [(8, windowAddr (coreOf r.xk) r.base), (9, if u.hedged then head else 0)] ++ inputs ++ [(14, w64 (f 448 32)), (15, w64 (f 480 32))]
  let c := (c.startWork r.xk .unit l.vi (l.codebase + w64 (4 * f 0 32)) regs).modCtx r.xk fun x => { x with
    tilecoord := w64 (f 64 48), geom := l.geom, feed := f 117 1 == 1, rc := l.ntile, runBase := r.base, runLen := r.len, pins := r.pins.map (·.2),
    unit := some { u := ⟨l.vi, l.lid, u.idx, r.copy⟩, hedged := u.hedged, expv := BitVec.ofNat 32 (f 160 32), head := head, tx := l.ux u.idx, ty := l.uy u.idx, tz := l.uz u.idx } }
  c.modUnit l.vi l.order u.idx fun u => { u with
    t0 := if r.copy ≠ 0 ∧ u.t0.isNone then some e.now else u.t0
    copies := updFirst (·.copy == r.copy) (fun r => { r with st := .resident, start := e.now }) u.copies }
/-- The next input slot is pinned, in ascending order, or the unit starts (R29, R89); a header outside global space is BADHDR (R26). -/
def Chip.pinNext (e : Env) (c : Chip) (l : Launch) (u : UnitRec) (r : CopyRec) : Chip :=
  match r.due with
  | [] => c.startUnit e l u r
  | i :: _ =>
    let ref : URef := ⟨l.vi, l.lid, u.idx, r.copy⟩
    let va := l.tilebase + w64 (128 * (u.slot i).1)
    if !isGlobal va then c.dropPlacing e ref r (.failed 0x13)
    else ((c.next.modCopyRec l.vi l.order u.idx r.copy fun r => { r with pinId := c.serial })).request
      { src := r.xk, part := c.serial, vi := l.vi, act := .pin ref i (BitVec.ofNat 32 (u.slot i).2), va := va, n := 128 }
/-- A copy enters PINNING (R89). -/
def Chip.startPinning (e : Env) (c : Chip) (l : Launch) (u : UnitRec) (r : CopyRec) : Chip :=
  let r' := { r with st := .pinning, due := u.present }
  (c.modCopyRec l.vi l.order u.idx r.copy fun _ => r').pinNext e l u r'
/-- The launch, unit and copy that a reference names, in any state. -/
def Vi.copyOf (v : Vi) (u : URef) : Option (Launch × UnitRec × CopyRec) :=
  v.launches.findSome? fun l => if l.lid ≠ u.lid || !l.remembered then none else
    (l.units.find? (·.idx == u.idx)).bind fun n => (n.copies.find? fun r => r.copy == u.copy).map fun r => (l, n, r)
/-- DESCRIPTOR_READ (R20, R22, R89); one that a page holds waits for it (R173). -/
def execDescriptorRead (u : URef) (s : State) : Host.Outcome State Fault Refusal :=
  run s fun e c => match (c.vi u.vi).copyOf u with
    | none => c
    | some (l, n, r) =>
      if r.st != .placing || l.st == .drain then c
      else match c.engineRead e u.vi (l.udbase + w64 (64 * u.idx)) 64 with
        | none =>
          let va := l.udbase + w64 (64 * u.idx)
          if c.engineHeld e u.vi va 0 then (c.askPage e u.vi va 0).timer (e.now + 1) (.descriptorRead u) else c.dropPlacing e u r (.failed 0x17)
        | some (c, d) =>
          if !descOk l u.idx d then c.dropPlacing e u r (.failed 0x10)
          else (c.modUnit u.vi l.order n.idx fun n => { n with snap := d }).startPinning e l { n with snap := d } r
/-- The copy in PINNING that waits for the answer to this request, with its launch, unit and the slot (R89). -/
def Chip.pinWaiter (c : Chip) (q : Req) : Option (Launch × UnitRec × CopyRec × Nat × URef) :=
  match q.act with
  | .pin u slot _ => ((c.vi u.vi).findCopy u q.src).bind fun p =>
      if p.2.2.st == .pinning && p.2.2.due.head? == some slot && p.2.2.pinId == q.part then some (p.1, p.2.1, p.2.2, slot, u) else none
  | _ => none
/-- PIN_REPLY (R29, R89): the answer to one request; a pin that no copy waits for any more is released (R440). -/
def execPinReply (q : Req) (home : Nat) (ans : PinAns) (s : State) : Host.Outcome State Fault Refusal :=
  run s fun e c =>
    let pin (buf : W64) (b : Bool) (pa : Nat) : Pin := ⟨q.va, home, pa, buf, b, false⟩
    match c.pinWaiter q, ans with
    | none, .pinned buf b _ pa => c.unpin q.src q.vi (pin buf b pa)
    | none, _ => c
    | some (l, n, r, slot, u), .pinned buf b tlines pa =>
      let r' := { r with pins := r.pins ++ [(slot, pin buf b pa)], due := r.due.tail }
      ((c.dropLeased (coreOf r.xk) u.vi buf tlines).modCopyRec u.vi l.order n.idx r.copy fun _ => r').pinNext e l n r'
    | some (_, _, r, _, u), .stalepin => c.dropPlacing e u r (.failed 0x11)
    | some (_, _, r, _, u), .earlypin => c.dropPlacing e u r (.failed 0x12)
    | some (_, _, r, _, u), .badhdr => c.dropPlacing e u r (.failed 0x13)
    | some (_, _, r, _, u), .dfetch => c.dropPlacing e u r (.failed 0x17)

/-! ### Placement (R86 to R88, R92, R98) -/

/-- The launch in DRAIN (R92). -/
def Chip.draining (c : Chip) : Option Launch := c.launches.find? (·.st == .drain)
/-- While a die reserves for the launch in DRAIN it places nothing else of that priority or lower (R92). -/
def Chip.heldBack (c : Chip) (die p : Nat) : Bool :=
  match c.draining with
  | some l => decide (p ≤ l.prio) && (l.nextUnit die).isSome
  | none => false
/-- The reservation that a die can make now for its next unit of the launch in DRAIN (R92): unit, context and run. -/
def Chip.drainNext (c : Chip) (die : Nat) : Option (Launch × Nat × Nat × Nat) :=
  c.draining.bind fun l => (l.nextUnit die).bind fun idx => (c.chooseCore die l fun _ => true).map fun p => (l, idx, p.1, p.2)
/-- The cores that meet the policy of a backup, tried in this order (R98); for another device's unit none while a copy of it lives here. -/
def Chip.backupTries (c : Chip) (b : BReq) (u : UnitRec) : List (Nat → Bool) :=
  let cfg := (c.vi b.u.vi).hedgecfg.toNat
  let live := u.copies.filter fun r => r.live && r.dev.isNone
  if b.job.isSome then (if live.isEmpty then [fun _ => true] else [])
  else if bit cfg 26 then (if live.any (·.die == b.die) then [] else [fun _ => true])
  else if bit cfg 25 then ((List.range 4).filter fun cl => !(live.any fun r => r.die == b.die && clusOf (coreOf r.xk) == cl)).map fun cl => fun ck => clusOf ck == cl
  else if bit cfg 24 then [fun ck => !(live.any fun r => rowOfP (c.phys (coreOf r.xk)) == rowOfP (c.phys ck))]
  else [fun ck => !(live.any fun r => coreOf r.xk == ck)]
/-- A waiting backup request is placed when a core meets its policy (R86, R97, R98); the device whose unit it is for is told (log 87). -/
def Chip.placeBackup (e : Env) (c : Chip) (die : Nat) (b : BReq) : Option Chip :=
  match (c.vi b.u.vi).findUnit b.u with
  | none => none
  | some (l, u) =>
    ((c.backupTries b u).findSome? fun ok => c.chooseCore die l ok).map fun (xk, base) =>
      let c := c.modDie die fun d => { d with backups := d.backups.filter fun w => !(w.serial == b.serial && w.u == b.u) }
      let c := (c.reserveFor e.now l u.idx (u.nback + 1) die xk base).modUnit l.vi l.order u.idx fun u => { u with nback := u.nback + 1, granted := false }
      let c := match b.job with
        | some j => c.noteTo j.origin { b with u := { b.u with lid := b.u.lid % 2 ^ 32 }, note := .placed xk }
        | none => c
      match (c.vi l.vi).copyOf ⟨l.vi, l.lid, u.idx, u.nback + 1⟩ with
      | some (l, u, r) => c.startPinning e l u r
      | none => c
/-- The interfaces with a placeable unit at a level of a die, with the launch that would be served (R86). -/
def Chip.servable (c : Chip) (die p : Nat) : List (Nat × Launch) :=
  c.vis.filterMap fun v =>
    (oldest (v.2.launches.filter fun l => l.st == .eligible && !l.gang && l.prio == p && (l.nextUnit die).isSome &&
      (c.chooseCore die l fun _ => true).isSome)).map fun l => (v.1, l)
/-- The interface that deficit round-robin serves, and the die's counters after it (R87). -/
def Chip.robin (c : Chip) (die p : Nat) (s : List Nat) : Option (Nat × Die) :=
  let d := c.die die
  let w (v : Nat) : Nat := (c.vi v).drrw
  let reset (t : Tbl Nat) : Tbl Nat := t.filter fun q => !(q.1 / 64 == p && !s.contains (q.1 % 64))
  let last := d.lastVi.get 63 p
  let after (l : List Nat) : Option Nat := ((List.range 64).map fun i => (last + 1 + i) % 64).find? l.contains
  let have_ := d.deficit.get 0 (p * 64 + last)
  if d.turn.get false p && s.contains last && decide (1 ≤ have_) then
    some (last, { d with deficit := reset (d.deficit.put (p * 64 + last) (have_ - 1)), turn := d.turn.put p (decide (2 ≤ have_)) })
  else
    match after (s.filter fun v => w v ≠ 0) with
    | some v =>
      let n := d.deficit.get 0 (p * 64 + v) + w v
      some (v, { d with deficit := reset (d.deficit.put (p * 64 + v) (n - 1)), lastVi := d.lastVi.put p v, turn := d.turn.put p (decide (2 ≤ n)) })
    | none => (after s).map fun v => (v, { d with deficit := reset d.deficit, lastVi := d.lastVi.put p v, turn := d.turn.put p false })
/-- An ordinary unit of a level is placed (R86 step 4, R89). -/
def Chip.placeUnit (e : Env) (c : Chip) (die p : Nat) : Option Chip :=
  let s := c.servable die p
  match c.robin die p (s.map (·.1)) with
  | none => none
  | some (v, d) =>
    match s.find? (·.1 == v) with
    | none => none
    | some (_, l) =>
      match l.nextUnit die, c.chooseCore die l fun _ => true with
      | some idx, some (xk, base) =>
        let c := ((c.modDie die fun _ => d).reserveFor e.now l idx 0 die xk base).leaveQueued l idx
        some (c.send (dispNode die) (dispNode die) .rsp (.descriptorRead ⟨l.vi, l.lid, idx, 0⟩))
      | _, _ => none
/-- The die reserves for the next of its units of the launch in DRAIN, where that launch has priority `p` (R86 step 3, R92). -/
def Chip.reserveDrain (e : Env) (c : Chip) (die p : Nat) : Option Chip :=
  match c.drainNext die with
  | some (l, idx, xk, base) => if l.prio = p then some ((c.reserveFor e.now l idx 0 die xk base).leaveQueued l idx) else none
  | none => none
/-- The oldest waiting backup of a level that can be placed (R86 step 1). -/
def Chip.placeBackups (e : Env) (c : Chip) (die p : Nat) : Option Chip :=
  (c.die die).backups.findSome? fun b => if ((c.vi b.u.vi).findUnit b.u).any (·.1.prio == p) then c.placeBackup e die b else none
/-- The level of the launch in DRAIN. -/
def Chip.drainsAt (c : Chip) (p : Nat) : Bool := c.draining.any (·.prio == p)
/-- What a dispatcher chooses now, at most one a cycle: the highest priority first, within it backups, then a launch in DRAIN,
then units (R86). A die that reserves for a launch in DRAIN places backups of its level, and nothing below it (R92, log 66). -/
def Chip.placement (e : Env) (c : Chip) (die : Nat) : Option Chip :=
  if (c.die die).splitPend || decide (e.now < (c.die die).placeFrom) then none
  else [7, 6, 5, 4, 3, 2, 1, 0].findSome? fun p =>
    if c.heldBack die p && !c.drainsAt p then none
    else (c.placeBackups e die p).orElse fun _ => if c.heldBack die p then c.reserveDrain e die p else c.placeUnit e die p
/-- PLACEMENT_DECISION (R86): the dispatcher makes its next decision a cycle later at the earliest. -/
def execPlacementDecision (die : Nat) (s : State) : Host.Outcome State Fault Refusal :=
  run s fun e c => match c.placement e die with
    | some c => c.modDie die fun d => { d with placeFrom := e.now + 1 }
    | none => c
/-- An interface without a placeable unit at a level has no deficit there (R87). -/
def Chip.dropDeficits (c : Chip) : Chip :=
  c.dies.foldl (fun c p =>
    if p.2.deficit.isEmpty then c
    else
      let keep (q : Nat × Nat) : Bool := (c.servable p.1 (q.1 / 64)).any (·.1 == q.1 % 64)
      c.modDie p.1 fun d => { d with deficit := d.deficit.filter keep }) c

/-! ### Reports and stealing (R84) -/

/-- A block is untouched: none of its units has left QUEUED. -/
def Launch.untouched (l : Launch) (k : Nat) : Bool :=
  (match l.st with | .blocked | .eligible | .drain => true | _ => false) && !l.cancelled && l.taken k == 0
/-- The dispatcher has a QUEUED unit that it can place (R84): an ordinary one, or one of the launch in DRAIN. -/
def Chip.canPlace (c : Chip) (die : Nat) : Bool :=
  (c.drainNext die).isSome || (List.range 8).any fun p => !c.heldBack die p && !(c.servable die p).isEmpty
/-- What a dispatcher reports: untouched blocks, and the units in them. -/
def Chip.reportOf (c : Chip) (die : Nat) : Nat × Nat :=
  c.launches.foldl (fun a l => (List.range l.blocks).foldl (fun a k =>
    if l.blockDie k = die ∧ l.untouched k then (a.1 + 1, a.2 + l.blockLen k) else a) a) (0, 0)
/-- DISPATCH_REPORT (R84): what a dispatcher knows of another die. -/
def execDispatchReport (die frm untouched queued : Nat) (s : State) : Host.Outcome State Fault Refusal :=
  run s fun _ c => c.modDie die fun d => { d with reports := d.reports.put frm (untouched, queued) }
/-- The block that a steal from a die takes: priority, age, highest index (R84). -/
def Chip.stealBlock (c : Chip) (frm : Nat) : Option (Launch × Nat) :=
  let ls := c.launches.filter fun l => (List.range l.blocks).any fun k => l.blockDie k == frm && l.untouched k
  let top := ls.foldl (fun n l => max n l.prio) 0
  (oldest (ls.filter (·.prio == top))).bind fun l =>
    ((List.range l.blocks).reverse.find? fun k => l.blockDie k == frm && l.untouched k).map fun k => (l, k)
/-- The dies that a dispatcher would ask, by its reports: the most queued units first, the lower die on a tie. -/
def Die.stealOrder (d : Die) (die : Nat) : List Nat :=
  (((List.range 8).filter fun f => f ≠ die && decide (0 < (d.reports.get (0, 0) f).1)).insertionSort fun a b =>
    (d.reports.get (0, 0) b).2 ≤ (d.reports.get (0, 0) a).2)
/-- A steal that a dispatcher can make now. -/
def Chip.steal (c : Chip) (die : Nat) : Option Chip :=
  let idle := (List.range 768).any fun i => (c.idleGeneral (die * 768 + i)).isSome
  if !idle || (c.die die).splitPend || c.canPlace die then none
  else ((c.die die).stealOrder die).findSome? fun f =>
    (c.stealBlock f).map fun (l, k) => c.modLaunch l.vi l.order fun l => { l with moved := l.moved.put k die }
/-- BLOCK_STEAL (R84). -/
def execBlockSteal (die : Nat) (s : State) : Host.Outcome State Fault Refusal := run s fun _ c => (c.steal die).getD c

/-! ### GANG launches (R92) -/

/-- The launch that may enter DRAIN: the oldest eligible GANG launch of the highest priority that has one. -/
def Chip.nextGang (c : Chip) : Option Launch :=
  if c.draining.isSome then none
  else
    let ls := c.launches.filter fun l => l.st == .eligible && l.gang
    let top := ls.foldl (fun n l => max n l.prio) 0
    oldest (ls.filter (·.prio == top))
/-- GANG_DRAIN (R92). -/
def execGangDrain (vi lid : Nat) (s : State) : Host.Outcome State Fault Refusal :=
  run s fun _ c => match c.nextGang with
    | some l => if l.vi = vi ∧ l.lid = lid then c.modLaunch vi l.order fun l => { l with st := .drain } else c
    | none => c
/-- All units of the launch in DRAIN enter PLACING in one cycle, and it is PLACED (R92). -/
def Chip.gangPass (c : Chip) (l : Launch) : Chip :=
  let c := c.modLaunch l.vi l.order fun l => { l with st := .placed }
  l.units.foldl (fun c u => u.copies.foldl (fun c r => if r.st == .placing then
    c.send (dispNode r.die) (dispNode r.die) .rsp (.descriptorRead ⟨l.vi, l.lid, u.idx, r.copy⟩) else c) c) c
/-- The launch in DRAIN, once every die holds its full reservation (R92). -/
def Chip.gangReady (c : Chip) : Option Launch := c.draining.filter fun l => !l.anyQueued
/-- GANG_RESERVE (R92). -/
def execGangReserve (vi lid : Nat) (s : State) : Host.Outcome State Fault Refusal :=
  run s fun _ c => match c.gangReady with
    | some l => if l.vi = vi ∧ l.lid = lid then c.gangPass l else c
    | none => c

end Sys2Proof.Machine
end

