-- ==== Sys2Proof/Machine/Hedge.lean ====
section
/-! DEFINITION. The hedge monitor and the hedging budget: samples, requests, the budget check, refunds by timeout and refills
(R94 to R102). -/
namespace Sys2Proof.Machine
open Sys2Proof

/-- Sample period in ticks (R94). -/
def samplePeriod : Nat := 4096
/-- Ticks that a request waits in a dispatcher (R98). -/
def hedgeWait : Nat := 16384
/-- The backups that a unit may have (R100): MAXB, 3 acting as 2. -/
def maxBackups (cfg : Nat) : Nat := Nat.min 2 (bits cfg 16 2)
/-- The copy is behind by its last four samples (R96). -/
def behind (x : ClassE) (cfg : Nat) (samples : List Nat) : Bool :=
  decide (64 ≤ histSum x.rate) && decide (64 ≤ histSum x.total) && samples.length == 4 &&
    decide (histSum samples < 4 * lower (quantile x.rate (bits cfg 32 10)))
/-- The estimate of a request; none where the rate median is bucket 0 (R97). -/
def estimate (x : ClassE) (work : Nat) : Option Nat :=
  let m := midpoint (quantile x.rate 512)
  if quantile x.rate 512 = 0 then none
  else some ((max (midpoint (quantile x.total 512) - work) m * 4096 + m - 1) / m)
/-- The unit may ask for a backup (R96): not NOHEDGE, GANG, sealed or ended, below MAXB, with no granted request waiting. -/
def UnitRec.mayAsk (u : UnitRec) (l : Launch) (cfg : Nat) : Bool :=
  bit cfg 0 && !u.nohedge && !l.gang && !u.sealed && u.winner.isNone && u.res.isNone && !l.cancelled && !u.granted && decide (u.nback < maxBackups cfg)
/-- One sampled copy (R94 to R97); `held` lists the units whose hold-off counted this instant already. A copy for another device's unit
asks that device, which keeps the unit's budget (log 87). -/
def sampleCopy (e : Env) (c : Chip) (xk : Nat) (held : List URef) : Chip × List URef :=
  let x := c.ctx xk
  match x.unit.bind fun u => ((c.vi u.u.vi).findCopy u.u xk).map fun p => (u.u, p) with
  | none => (c, held)
  | some (u, l, n, r) =>
    let put (c : Chip) (f : CopyRec → CopyRec) : Chip := c.modCopyRec u.vi l.order n.idx r.copy f
    if x.st == .halt then (put c fun r => { r with lastWork := none }, held)
    else match r.lastWork with
      | none => (put c fun r => { r with lastWork := some x.workctr }, held)
      | some w =>
        let d := (x.workctr - w).toNat
        let samples := (r.samples ++ [d]).reverse.take 4 |>.reverse
        let k := classOf (c.mon (clusterKey xk)) u.vi n.hclass e.now
        let k := { k with rate := histAdd k.rate d, last := e.now }
        let c := { c with mons := c.mons.put (clusterKey xk) (putClass (c.mon (clusterKey xk)) k) }
        let c := put c fun r => { r with lastWork := some x.workctr, samples := samples }
        let unit : URef := { u with copy := 0 }
        if held.contains unit then (c, held)
        else match n.hold with
          | some h => (c.modUnit u.vi l.order n.idx fun n => { n with hold := if h ≤ 1 then none else some (h - 1) }, unit :: held)
          | none =>
            let cfg := (c.vi u.vi).hedgecfg.toNat
            if n.mayAsk l cfg && behind k cfg samples then
              match estimate k x.workctr.toNat with
              | none => (c, held)
              | some est =>
                let b : BReq := { u := u, est := est, die := r.die, until_ := 0, serial := c.serial }
                let c := (c.next.modUnit u.vi l.order n.idx fun n => { n with hold := some 4 })
                (if u.lid < 2 ^ 32 then c.send (dispNode r.die) (viNode u.vi) .cmt (.budgetCheck b)
                 else c.noteTo (u.lid / 2 ^ 32 - 1) { b with u := { u with lid := u.lid % 2 ^ 32 }, note := .more }, unit :: held)
            else (c, held)
/-- HEDGE_SAMPLE (R94): every resident copy, in core order. -/
def execHedgeSample (s : State) : Host.Outcome State Fault Refusal :=
  run s fun e c =>
    let xs := (c.ctxs.filter fun p => p.2.st != .idle && p.2.kind == .unit && p.2.ending.isNone).map (·.1)
    let c := { c with nextSample := (e.now / samplePeriod + 1) * samplePeriod }
    (xs.foldl (fun (a : Chip × List URef) xk => sampleCopy e a.1 xk a.2) (c, [])).1
/-- A granted request ends without a backup: its estimate is refunded (R99). -/
def Chip.endRequest (c : Chip) (b : BReq) (l : Launch) (n : UnitRec) (dropped : Bool) : Chip :=
  let c := if dropped then c.count b.u.vi fun k => { k with hedgedrop := k.hedgedrop + 1 } else c
  (c.refund b.u.vi b.est).modUnit b.u.vi l.order n.idx fun n =>
    { n with sumE := n.sumE - b.est, granted := false, devReq := none, hold := if dropped then some 4 else n.hold }
/-- What a request for another device carries of its unit (R98). -/
def backJob (origin peer : Nat) (l : Launch) (n : UnitRec) : BackJob :=
  { origin := origin, peer := peer, copy := n.nback + 1, geom := l.geom, tilebase := l.tilebase, udbase := l.udbase, codebase := l.codebase, prio := l.prio,
    spkib := l.spkib, ntile := l.ntile, gx := l.gx, gy := l.gy, gz := l.gz, snap := n.snap }
/-- The unit has no use for a backup any more (R99). -/
def UnitRec.settledFor (n : UnitRec) (l : Launch) : Bool := n.sealed || n.winner.isSome || n.res.isSome || l.cancelled
/-- The dispatcher that a granted request goes to: of another die under DIE, else of the asking copy's own die, without a policy
too (R98, log 87). Under DIE, where no die without a live copy has a core that can take the unit, the request waits in the lowest-numbered
of them, or in the asking die where there is none (DESIGN CHOICE, log 87). -/
def Chip.hedgeTarget (c : Chip) (b : BReq) (l : Launch) (n : UnitRec) : Nat :=
  if bit (c.vi b.u.vi).hedgecfg.toNat 26 then
    let free := (List.range 8).filter fun d => !(n.copies.any fun r => r.live && r.dev.isNone && r.die == d)
    match free.find? fun d => (c.chooseCore d l fun _ => true).isSome with
    | some d => d
    | none => free.head?.getD b.die
  else b.die
/-- BUDGET_CHECK (R99, R102). A DEV request is granted until the peer device answers that it has placed or dropped it (R96, R97). -/
def execBudgetCheck (b : BReq) (s : State) : Host.Outcome State Fault Refusal :=
  run s fun _ c =>
    let v := c.vi b.u.vi
    match v.findUnit b.u with
    | none => c
    | some (l, n) =>
      if n.settledFor l then c
      else if v.level < b.est then
        ((c.count b.u.vi fun k => { k with hedgedeny := k.hedgedeny + 1 }).modVi b.u.vi fun v => { v with budgetBusy := true }).modUnit b.u.vi l.order n.idx
          fun n => { n with hold := some 4 }
      else
        let cfg := v.hedgecfg.toNat
        let peer := bits cfg 44 4
        let c := (c.modVi b.u.vi fun v => { v with level := v.level - b.est, budgetBusy := true }).modUnit b.u.vi l.order n.idx
          fun n => { n with sumE := n.sumE + b.est, granted := true }
        if bit cfg 27 then
          if peer = c.group % 16 then c.endRequest b l n true
          else
            let b := { b with job := some (backJob (c.group % 16) peer l n) }
            (c.modUnit b.u.vi l.order n.idx fun n => { n with devReq := some b }).noteTo peer b
        else c.send (viNode b.u.vi) (dispNode (c.hedgeTarget b l n)) .cmt (.backupRequest { b with die := c.hedgeTarget b l n })
/-- A request waits in the dispatcher that is to place its backup (R98). -/
def Chip.waitBackup (e : Env) (c : Chip) (b : BReq) : Chip :=
  let b := { b with until_ := e.now + hedgeWait }
  (c.modDie b.die fun d => { d with backups := d.backups ++ [b] }).timer b.until_ (.hedgeRequestTimeout b)
/-- A request that waits in a dispatcher leaves it; the record of another device's unit goes with it, where no copy of it lives here. -/
def Chip.dropWaiting (c : Chip) (b : BReq) : Chip :=
  let mine (u : UnitRec) : Bool := u.idx == b.u.idx && !(u.copies.any (·.live))
  let c := c.modDie b.die fun d => { d with backups := d.backups.filter fun w => !(w.serial == b.serial && w.u == b.u) }
  if b.u.lid < 2 ^ 32 then c else c.modVi b.u.vi fun v => { v with launches := v.launches.filter fun l => !(l.lid == b.u.lid && l.units.any mine) }
/-- The request of another device as it waits here: named after that device's launch, under the serial number that device gave it. -/
def BReq.guest (b : BReq) (j : BackJob) : BReq := { b with u := { b.u with lid := guestLid j.origin b.u.lid, copy := 0 }, note := .ask }
/-- The peer has placed a backup of a unit: a copy on another device (R97, R98). One that has no use any more is cancelled there. -/
def Chip.backupPlaced (c : Chip) (b : BReq) (j : BackJob) (xk : Nat) : Chip :=
  match (c.vi b.u.vi).findUnit b.u with
  | some (l, n) =>
    if n.devReq.any (·.serial == b.serial) then
      c.modUnit b.u.vi l.order n.idx fun n => { n with
        copies := n.copies ++ [{ copy := n.nback + 1, die := b.die, xk := xk, st := .resident, base := 0, len := 0, ntile := 0, dev := some j.peer }]
        nback := n.nback + 1, granted := false, devReq := none }
    else off
  | none => off
where
  off : Chip := { c with outbox := c.outbox ++ [(extDevice j.peer, .cancelCopy xk 0 (some ⟨b.u.vi, guestLid j.origin b.u.lid, b.u.idx, j.copy⟩))] }
/-- A backup on another device has ended, with its span and its outcome (R103, R441). -/
def Chip.backupEnded (e : Env) (c : Chip) (u : URef) (xk : Nat) (how : EndHow) (start stop work vis : Nat) : Chip :=
  match (c.vi u.vi).findCopy u xk with
  | none => c
  | some (l, n, r) =>
    let t0 : Option Nat := if start = 0 then n.t0 else some (n.t0.elim start (Nat.min start))
    ((c.modUnit u.vi l.order n.idx fun n => { n with t0 := t0 }).modCopyRec u.vi l.order n.idx r.copy fun r =>
      { r with start := start, stop := stop }).copyEnded e u xk how work vis
/-- A copy of this device's unit that runs on another one asks for a further backup (R96, R103). -/
def Chip.backupMore (c : Chip) (b : BReq) : Chip :=
  match (c.vi b.u.vi).findUnit b.u with
  | some (l, n) =>
    if n.mayAsk l (c.vi b.u.vi).hedgecfg.toNat then
      (c.modUnit b.u.vi l.order n.idx fun n => { n with hold := some 4 }).send (dispNode b.die) (viNode b.u.vi) .cmt (.budgetCheck { b with note := .ask })
    else c
  | none => c
/-- BACKUP_REQUEST at the dispatcher that is to place the backup, of this device or of the one that a request of another device
names (R98), and what two devices tell each other of such a backup (log 87). -/
def execBackupRequest (b : BReq) (s : State) : Host.Outcome State Fault Refusal :=
  run s fun e c => match b.note, b.job with
    | .ask, some j =>
      let guest := BReq.guest b j
      let c := if ((c.vi b.u.vi).findUnit guest.u).isSome then c
        else c.modVi b.u.vi fun v => { v with launches := v.launches ++ [guestLaunch b j e.now c.serial] }
      c.next.waitBackup e guest
    | .ask, none => (match (c.vi b.u.vi).copyOf b.u with
      | none => c
      | some (l, n, _) =>
        if n.settled then c
        else if n.settledFor l then c.endRequest b l n false
        else c.waitBackup e b)
    | .more, _ => c.backupMore b
    | .placed xk, some j => c.backupPlaced b j xk
    | .ended xk how start stop work vis, _ => c.backupEnded e b.u xk how start stop work vis
    | .withdraw, some j => c.dropWaiting (BReq.guest b j)
    | _, none => c
/-- HEDGE_REQUEST_TIMEOUT (R98, R99): the device whose request it is counts the drop and refunds the estimate. -/
def execHedgeRequestTimeout (b : BReq) (s : State) : Host.Outcome State Fault Refusal :=
  run s fun _ c =>
    if (c.die b.die).backups.any (fun w => w.serial == b.serial && w.u == b.u) then
      let c := c.dropWaiting b
      match b.job with
      | some j => { c with outbox := c.outbox ++ [(extDevice j.origin, .hedgeRequestTimeout { b with u := { b.u with lid := b.u.lid % 2 ^ 32 } })] }
      | none => match (c.vi b.u.vi).findUnit b.u with
        | some (l, n) => c.endRequest b l n true
        | none => c
    else match (c.vi b.u.vi).findUnit b.u with
      | some (l, n) => if n.devReq.any (·.serial == b.serial) then c.endRequest b l n true else c
      | none => c
/-- BUDGET_REFILL (R102): at every GTIME that is a multiple of 1,250. -/
def execBudgetRefill (s : State) : Host.Outcome State Fault Refusal :=
  run s fun e c =>
    let fill (v : Vi) : Vi := { v with level := min (v.cap : Int) (v.level + v.fill), budgetBusy := true }
    { c with vis := c.vis.map (fun (p : Nat × Vi) => (p.1, fill p.2)), nextRefill := (e.now / 1250 + 1) * 1250 }

end Sys2Proof.Machine
end

