-- ==== Sys2Proof/Machine/Power.lean ====
section
/-! DEFINITION. The power controller: row voltage, dividers and hops, droop, the current-slew limiter, the control interval,
fabric power messages, the supply emergency (R393, R402 to R415). -/
namespace Sys2Proof.Machine
open Sys2Proof

/-! ### Dividers and voltage (R402 to R407) -/

/-- The minimum voltage of a divider code, in 10 mV units (R404). -/
def needOf (code : Nat) : Nat := match code with | 0 => 75 | 1 => 65 | 2 => 60 | _ => 55
/-- The divider code that a core should have: the slowest of its request, its throttle and the SLOW floor (R404, R414). -/
def Chip.wanted (c : Chip) (p : Nat) : Nat :=
  let k := c.pcore p
  max (max k.dreq k.thr) (if 0 < c.power.slowLeft then c.power.slowFl else 0)
/-- The physical cores of a row. -/
def rowCores (r : Nat) : List Nat := (List.range 16).map (16 * r + ·)
/-- The row's voltage target: raised for a faster divider to come, lowered only after a hop to a slower one (R404). -/
def Chip.vTarget (c : Chip) (r : Nat) : Nat :=
  (rowCores r).foldl (fun v p => max v (needOf (min (c.wanted p) (c.pcore p).dcur))) (c.row r).vreq
/-- BUSY of a core (R403). -/
def Chip.coreBusy (c : Chip) (p : Nat) : Bool := (c.pcore p).hop || c.wanted p != (c.pcore p).dcur
/-- BUSY of a row (R402). -/
def Chip.rowBusy (c : Chip) (r : Nat) : Bool := (c.row r).stepping || (rowCores r).any fun p => (c.pcore p).hop

/-- A refused request of R405. -/
def Chip.denied (c : Chip) : Chip := { c with power := { c.power with denycnt := Nat.min 65535 (c.power.denycnt + 1) } }
/-- ROWPWR (R402, R405). -/
def execRowpwr (row : Nat) (value : W64) (s : State) : Host.Outcome State Fault Refusal :=
  run s fun _ c =>
    let n := value.toNat
    let v := bits n 32 8
    let deny : Nat := if v < 55 then 1 else if 85 < v then 2 else 0
    let c := c.modRow row fun r => { r with boostreq := bit n 30, ceil := bits n 24 4, deny := deny, vreq := if deny = 0 then v else r.vreq }
    if deny = 0 then c else c.denied
/-- The core may be switched off (R405). A context that is only reserved for a unit in PLACING or PINNING is IDLE (R89, log 73). -/
def Chip.canOff (c : Chip) (ck : Nat) : Bool :=
  let k := c.core ck
  (List.range 8).all (fun n => (c.ctx (ck * 8 + n)).st == .idle) && !k.hasActor && k.saved.isEmpty && !(k.bufs.any fun b => b.2.valid) &&
    k.tasks.isEmpty && k.hslots.isEmpty && k.hq.isEmpty
/-- A core starts in its reset state, every line full: its contexts, of which a dispatcher's reservation is no part, its own home, and
what other homes have recorded of it; the contents of its scratchpad are undefined (R209, R405, log 73). -/
def Chip.restartCore (c : Chip) (ck : Nat) : Chip :=
  let kept (q : Nat × Ctx) : Option (Nat × Ctx) := if coreOf q.1 ≠ ck then some q else if q.2.resv then some (q.1, { resv := true }) else none
  let homes := (c.homes.filter fun q => q.1 ≠ coreNode ck).map fun q => (q.1, { q.2 with recs := q.2.recs.filter fun r => r.src ≠ ck })
  ({ c with cores := c.cores.put ck {}, ctxs := c.ctxs.filterMap kept, homes := homes }).mess (sram ck 0) (2 ^ 18)
/-- COREPWR (R403, R405). -/
def execCorepwr (pcore : Nat) (value : W64) (s : State) : Host.Outcome State Fault Refusal :=
  run s fun _ c =>
    let n := value.toNat
    let k := c.pcore pcore
    let ck := c.logical pcore
    let live := bit n 14 && !k.off && !c.canOff ck
    let c := c.modPcore pcore fun k => { k with dreq := n % 4, deny := if live then 4 else 0, off := if live then k.off else bit n 14 }
    if live then c.denied else if k.off && !bit n 14 then c.restartCore ck else c
/-- The row has a voltage step to make; a hop under way is finished first (R404). -/
def Chip.stepDue (c : Chip) (r : Nat) : Bool := !(c.row r).stepping && !((rowCores r).any fun p => (c.pcore p).hop) && (c.row r).vcur != c.vTarget r
/-- VOLTAGE_STEP (R404): a step of 10 mV, or its settling after 40 ticks. -/
def execVoltageStep (row : Nat) (s : State) : Host.Outcome State Fault Refusal :=
  run s fun e c =>
    if (c.row row).stepping then c.modRow row fun r => { r with stepping := false }
    else if c.stepDue row then
      let t := c.vTarget row
      (c.modRow row fun r => { r with stepping := true, vcur := if r.vcur < t then r.vcur + 1 else r.vcur - 1 }).timer (e.now + 40) (.voltageStep row)
    else c
/-- A command of CTXCTL is stopping contexts of the core (R385, R406). -/
def Chip.halting (c : Chip) (ck : Nat) : Bool :=
  let d := c.die (dieOf ck)
  (d.ctxPend == 1 || d.ctxPend == 3) && bits d.ctxctl.toNat 0 10 == ck % 768
/-- A hop can start: a voltage step under way is over, the row's voltage is enough, and no stop request is on its way to the core
(R404, R406). -/
def Chip.hopDue (c : Chip) (p : Nat) : Bool :=
  let k := c.pcore p
  let w := c.wanted p
  let r := c.row (rowOfP p)
  !k.hop && w != k.dcur && !r.stepping && (k.dcur < w || needOf w ≤ r.vcur) && !c.halting (c.logical p) &&
    !((List.range 8).any fun n => (c.ctx (c.logical p * 8 + n)).stopReq)
/-- The core whose cycles the delay of a timer is counted in (R6, R153, R306, R347). -/
def Ev.delayOf (c : Chip) (ev : Ev) : Option Nat :=
  let of (q : Req) : Option Nat := if q.host then none else some (coreOf q.src)
  match ev with
  | .yieldExpiry xk _ => some (coreOf xk)
  | .faultRetry q | .waddrRetry q | .commitBusyRetry q | .claimRetry q | .watchRetry q | .lockTableRetry q | .atomicResend q | .atomicRequest q => of q
  | .pinRetry q => (match q.act with | .pin .. => none | _ => of q)
  | .reoffer m => if m.src < 2 ^ 24 then some (coreOf m.src) else none
  | .handlerMessage m => if bits m.sender.toNat 13 4 = c.group % 16 then some (addrCore m.sender.toNat) else none
  | _ => none
/-- A time that lies ahead, when what is left of it in cycles of `old` ticks goes on after `stop` ticks in cycles of `new` ticks (R6). -/
def stretched (now stop old new t : Nat) : Nat := if now < t then now + stop + (t - now + old - 1) / old * new else t
/-- The length of a core's cycle has changed, after a stop of its clock for `stop` ticks: what a handler run has used of its budget so
far is settled, and the delays that are counted in the core's cycles go on in cycles of the new length (R6, R350). -/
def Chip.recount (now stop old : Nat) (c : Chip) (p : Nat) : Chip :=
  let ck := c.logical p
  let new := c.cycleTicks p
  let st (t : Nat) : Nat := stretched now stop old new t
  let c := (c.busyCtxs ck).foldl (fun c xk => c.modCtx xk fun x =>
    { x with budget := x.budget - (now - x.budgetAt) / x.perCycle, budgetAt := now + stop, perCycle := new,
             ops := x.ops.map fun (o : Op) => match o.kind with | .mmaEnd m due => { o with kind := .mmaEnd m (st due) } | _ => o }) c
  let late (f : Flight) : Flight := if f.ev.delayOf c = some ck then { f with at_ := st f.at_ } else f
  { c.modCore ck fun k => { k with mxNow := k.mxNow.map fun q => (q.1, st q.2), msgs := k.msgs.map fun m => { m with due := st m.due } } with net := c.net.map late }
/-- The same for every core of a row, from the package as it was before. -/
def Chip.recountRow (now : Nat) (c0 c : Chip) (r : Nat) : Chip := (rowCores r).foldl (fun c p => c.recount now 0 (c0.cycleTicks p) p) c
/-- CLOCK_HOP (R406): the core's clock stops for 8 ticks, and goes on at the new divider; a stop asked for meanwhile is taken then. -/
def execClockHop (pcore : Nat) (s : State) : Host.Outcome State Fault Refusal :=
  run s fun e c =>
    if (c.pcore pcore).hop then
      (c.busyCtxs (c.logical pcore)).foldl (fun c xk => c.modCtx xk (·.stopIfAsked e.now)) (c.modPcore pcore fun k => { k with hop := false })
    else if c.hopDue pcore then
      let w := c.wanted pcore
      ((c.modPcore pcore fun k => { k with hop := true, dcur := w }).recount e.now 8 (c.cycleTicks pcore) pcore).timer (e.now + 8) (.clockHop pcore)
    else c
/-- DROOP (R408). -/
def execDroop (row : Nat) (s : State) : Host.Outcome State Fault Refusal :=
  run s fun e c => Chip.recountRow e.now c (c.modRow row fun r => { r with droop := true, droopUntil := e.now + 32 }) row
/-- VOLTAGE_RECOVERED (R408): stretching has lasted at least 32 ticks. -/
def execVoltageRecovered (row : Nat) (s : State) : Host.Outcome State Fault Refusal :=
  run s fun e c =>
    if e.now < (c.row row).droopUntil then c.timer (c.row row).droopUntil (.voltageRecovered row)
    else Chip.recountRow e.now c (c.modRow row fun r => { r with droop := false }) row

/-! ### The current-slew limiter (R409, R410) -/

/-- Level of entry `n` of a die's ramp table. -/
def Die.level (d : Die) (n : Nat) : Nat := if n < 8 then bits d.ramp0.toNat (8 * n) 8 else bits d.ramp1.toNat (8 * (n - 8)) 8
/-- Ramp tables that may be written: no level above 64, none below its predecessor (R409). -/
def rampOk (a b : W64) : Bool :=
  let d : Die := { ramp0 := a, ramp1 := b }
  (List.range 16).all (fun n => d.level n ≤ 64) && (List.range 15).all fun n => d.level n ≤ d.level (n + 1)
/-- Engine steps that the macro-op of a context has ahead of it, as far as four segments on; a stop or the context's end leaves it
only those of a segment that it has begun (R279, R281). -/
def Chip.stepsAhead (c : Chip) (xk : Nat) : Nat :=
  match (c.ctx xk).mop with
  | none => 0
  | some o =>
    if (c.ctx xk).stopReq || (c.endReason xk).isSome then (if o.fresh then 0 else o.left)
    else o.left + ((List.range 4).map fun i => if o.seg + 1 + i < o.ns then o.args.steps (o.seg + 1 + i) else 0).sum
/-- Engine steps that a core could perform in a step of 4 ticks: none while its clock stands or its unit performs a tile operation (R271,
R408, R410). -/
def Chip.demand (c : Chip) (p : Nat) : Nat :=
  let ck := c.logical p
  let k := c.pcore p
  let div := c.cycleTicks p
  if k.off || k.hop || (c.core ck).mxNow.any (·.2 ≠ 0) then 0
  else Nat.min ((3 + div) / div) ((List.range 8).map fun i => c.stepsAhead (ck * 8 + i)).sum
/-- One engine step of a core, of the macro-op that its unit serves: it counts in WORKCTR. With a segment's last step the next segment
follows at once, and the unit goes on to the next context by turns; a stop, the context's end or the macro-op's last step leaves the
boundary to SEGMENT_COMPLETE (R93, R271, R279, R281). -/
def Chip.mxStep (e : Env) (c : Chip) (ck : Nat) : Chip :=
  let c := c.mxServe e.now ck
  match (c.core ck).mxNow with
  | some (n, 0) =>
    let xk := ck * 8 + n
    let c := c.modCtx xk fun x => { x with workctr := x.workctr + 1, mop := x.mop.map fun o => { o with left := o.left - 1 } }
    match (c.ctx xk).mop with
    | some o =>
      if o.left ≠ 0 then c
      else
        let c := c.modCore ck fun k => { k with mxNow := none }
        if o.seg + 1 < o.ns ∧ (c.ctx xk).stopReq = false ∧ c.endReason xk = none then c.nextSegment e xk o else c
    | none => c
  | _ => c
/-- `g` steps granted round-robin among the cores of a row: the cores with what each may still have, from the one after `last`. -/
def grantSteps (e : Env) : Nat → Chip → Nat → List (Nat × Nat) → Nat → Chip × Nat
  | 0, c, _, _, last => (c, last)
  | n + 1, c, r, dem, last =>
    match ((List.range 16).map fun i => (last + 1 + i) % 16).find? fun i => dem.any fun q => q.1 == i && q.2 != 0 with
    | none => (c, last)
    | some i => grantSteps e n (c.mxStep e (c.logical (16 * r + i))) r (dem.map fun q => if q.1 = i then (q.1, q.2 - 1) else q) i
/-- The demands of the cores of a row (R410). -/
def Chip.demands (c : Chip) (r : Nat) : List (Nat × Nat) := (List.range 16).map fun i => (i, c.demand (16 * r + i))
/-- A row at a step boundary (R410, R414). -/
def rampRow (e : Env) (c : Chip) (r : Nat) : Chip :=
  let d := c.die (r / 48)
  let w := c.row r
  let dem := c.demands r
  let need := (dem.map (·.2)).sum
  let ceil := if e.now < c.power.staggerUntil then 0 else w.eceil
  let t := e.now / 4
  let held := decide (max 1 d.dwell ≤ t - w.since)
  let w := if held && decide (w.lvl < ceil ∧ d.level w.lvl < need) then { w with lvl := w.lvl + 1, since := t }
    else if held && decide (0 < w.lvl) && (decide (need ≤ d.level (w.lvl - 1)) || decide (ceil < w.lvl)) then { w with lvl := w.lvl - 1, since := t }
    else w
  let (c, last) := grantSteps e (Nat.min need (d.level w.lvl)) c r dem w.rr
  if w = c.row r ∧ last = w.rr then c else c.modRow r fun _ => { w with rr := last }
/-- RAMP_STEP (R410): every row, at a GTIME that is a multiple of 4. -/
def execRampStep (s : State) : Host.Outcome State Fault Refusal :=
  run s fun e c => (List.range 384).foldl (fun c r => rampRow e c r) { c with nextRamp := (e.now / 4 + 1) * 4 }

/-! ### The control interval (R393, R412) -/

/-- A power message to every device of a mask (R414). -/
def Chip.powerMsg (c : Chip) (mask : Nat) (ev : Ev) : Chip :=
  (List.range 16).foldl (fun c g => if bit mask g then
    (if g = c.group % 16 then c.send tanNode tanNode .ctl ev else { c with outbox := c.outbox ++ [(extDevice g, ev)] }) else c) c
/-- A core at an interval boundary: HOT and THR (R412). -/
def thermalCore (temp tlim hyst : Nat) (k : PCore) : PCore :=
  if tlim < temp then { k with hot := true, thr := Nat.min 3 (k.thr + 1) }
  else { k with hot := false, thr := if temp + hyst ≤ tlim then k.thr - 1 else k.thr }
/-- A row at an interval boundary (R412): thermal, then the current limit, then boost. -/
def intervalRow (throttled high low : Bool) (r : Row) : Row :=
  let r := if throttled then { r with boosted := false }
    else if high then { r with limitSteps := r.limitSteps + 1, clim := true, boosted := false }
    else { r with boosted := r.boostreq }
  let r := if low && r.limitSteps ≠ 0 then { r with limitSteps := r.limitSteps - 1, clim := r.limitSteps != 1 } else r
  { r with eceil := if r.boosted then 15 else r.ceil - r.limitSteps }
/-- CONTROL_INTERVAL (R412): at every GTIME that is a multiple of 1,250; temperatures and power are free values (log 10). -/
def execControlInterval (s : State) : Host.Outcome State Fault Refusal :=
  run s fun e c =>
    let t := e.now / 1250
    let temp (p : Nat) : Nat := Config.temperature p t
    let cfg := c.power.cfg.toNat
    let pw := Config.power t
    let all := List.range 6144
    let next (p : Nat) : PCore := thermalCore (temp p) (bits cfg 56 8) (bits cfg 52 4) (c.pcore p)
    let newHot := all.filter fun p => (next p).hot && !(c.pcore p).hot
    let reach3 := all.any fun p => (next p).thr == 3 && (c.pcore p).thr != 3
    let (left, fl) := match c.power.slowNext with
      | some (f, n) => (n, f)
      | none => (c.power.slowLeft - 1, c.power.slowFl)
    let slowP : Power := { c.power with pwr := Nat.min 4095 pw, slowLeft := left, slowFl := fl, slowNext := none }
    let c' := all.foldl (fun (k : Chip) p => if next p = c.pcore p then k else k.modPcore p fun _ => next p) { c with power := slowP, nextInterval := (t + 1) * 1250 }
    let throttled (r : Nat) : Bool := decide (0 < left) || (rowCores r).any fun p => (c'.pcore p).hot
    let row (r : Nat) : Row := intervalRow (throttled r) (decide (bits cfg 40 12 < pw)) (decide (pw + 10 * bits cfg 32 8 ≤ bits cfg 40 12)) (c.row r)
    let c' := (List.range 384).foldl (fun (k : Chip) r => if row r = c.row r then k else k.modRow r fun _ => row r) c'
    let c' := newHot.foldl (fun k p => k.migrate e temp p) c'
    if bit cfg 15 && reach3 then c'.powerMsg (bits cfg 16 16) (.slow (bits cfg 13 2) (bits cfg 9 4)) else c'

/-! ### Fabric power messages and the supply emergency (R413 to R415) -/

/-- FABPWR written: the fields a command uses (R413). -/
def Power.setFab (p : Power) (n : Nat) : Power :=
  { p with fabMask := bits n 48 16, fabSlotw := bits n 32 16, fabNslot := bits n 28 4, fabSlowd := bits n 24 4, fabSlowf := bits n 22 2 }
/-- FABPWR with CMD 1: STAGGER to every device of MASK (R414). -/
def execFabpwrStagger (value : W64) (s : State) : Host.Outcome State Fault Refusal :=
  run s fun _ c =>
    let p := c.power.setFab value.toNat
    ({ c with power := p }).powerMsg p.fabMask (.stagger p.fabNslot p.fabSlotw)
/-- FABPWR with CMD 2: SLOW to every device of MASK (R414). -/
def execFabpwrSlow (value : W64) (s : State) : Host.Outcome State Fault Refusal :=
  run s fun _ c =>
    let p := c.power.setFab value.toNat
    ({ c with power := p }).powerMsg p.fabMask (.slow p.fabSlowf p.fabSlowd)
/-- STAGGER arrives (R414): no row rises for the device's slots. -/
def execStagger (nslot slotw : Nat) (s : State) : Host.Outcome State Fault Refusal :=
  run s fun e c => { c with power := { c.power with staggerUntil := e.now + c.group % 16 % (nslot + 1) * max 1 slotw } }
/-- SLOW arrives (R414): in force from the next interval boundary. -/
def execSlow (floor intervals : Nat) (s : State) : Host.Outcome State Fault Refusal :=
  run s fun _ c => { c with power := { c.power with slowNext := some (floor, max 1 intervals) } }
/-- SUPPLY_EMERGENCY (R415): a power halt of every context. -/
def execSupplyEmergency (s : State) : Host.Outcome State Fault Refusal :=
  run s fun e c =>
    let c := { c with power := { c.power with emerg := true, emergCond := true } }
    (c.ctxs.map (·.1)).foldl (fun c xk => c.askStop e.now xk fun x => { x with haltPwr := true }) c
/-- EMERGENCY_CLEARED (R415): the condition has cleared. -/
def execEmergencyCleared (s : State) : Host.Outcome State Fault Refusal :=
  run s fun _ c => { c with power := { c.power with emergCond := false } }
/-- EMERG written with 1 once the condition has cleared (R413, R415): the contexts of the power halt resume. -/
def execEmerg (value : W64) (s : State) : Host.Outcome State Fault Refusal :=
  run s fun e c =>
    if bit value.toNat 31 && !c.power.emergCond && c.power.emerg then
      let c := { c with power := { c.power with emerg := false } }
      (c.ctxs.map (·.1)).foldl (fun c xk =>
        (c.modCtx xk fun x => { x with haltPwr := false, stopReq := x.stopReq && (x.haltCtl || x.haltSwap) }).unhalt e xk) c
    else c

end Sys2Proof.Machine
end

