-- ==== Sys2Proof/Machine/Trust.lean ====
section
/-! DEFINITION. Fabric ports: training, flits, permits and key rollover; Tantalum: boot, SPDM, the fatal-error dump (R60 to
R75, R452, R453). -/
namespace Sys2Proof.Machine
open Sys2Proof

/-! ### Fabric ports (R60 to R72) -/

/-- The class number of R62. -/
def clsNo (k : Cls) : Nat := match k with | .req => 0 | .rsp => 1 | .wrb => 2 | .amo => 3 | .msg => 4 | .cmt => 5 | .ctl => 6 | .mgt => 7
/-- The unanswered requests of class AMO to memory outside the package are sent again, with their sequence numbers (R306). -/
def Chip.resendAmo (c : Chip) : Chip :=
  ((c.cores.flatMap fun p => p.2.amoOut).filter fun p => decide (2 ^ 24 ≤ p.1)).foldl (fun c p => c.request p.2) c
/-- The port goes down, its link's own messages with it, and what may have been lost is sent again; the loss of the bridge device's
bridge port stops the package (R31, R60, R306, R452). -/
def Chip.portLost (c : Chip) (port : Nat) : Chip :=
  let c := ({ c with outbox := c.outbox.filter (·.1 ≠ 2 ^ 17 + port) }.modPort port fun p =>
    { p with up := false, down := true, keyed := false, lanes := 0, rxRow := 0 }).resendAmo
  if port = bridgePort ∧ c.bridge then { c with inputs := .fatalError 2 255 :: c.inputs } else c
/-- The next stage of a port (R70): trained in the clear, where it carries only MGT traffic; then, once the SPDM session has
derived the keys, the key of the receive direction; then that of the send direction, and it carries every class. A session
that fails ends the stages. -/
def Port.train (p : Port) (lanes : Nat) : Port :=
  let p := { p with lanes := if lanes < 8 then 4 else 8 }
  if !p.up then { p with up := true, down := false, keyed := false, nakRow := 0, rolling := 0, txSlot := 0, rxKeys := [] }
  else if p.rxKeys.isEmpty then { p with rxKeys := [0] }
  else { p with keyed := true }
/-- PORT_TRAINING (R60, R70): 8 lanes, or 4, and one stage of Port.train; fewer lanes lose the port. -/
def execPortTraining (port lanes : Nat) (s : State) : Host.Outcome State Fault Refusal :=
  run s fun _ c => if lanes < 4 then c.portLost port else c.modPort port (·.train lanes)
/-- PORT_DOWN (R60). -/
def execPortDown (port : Nat) (s : State) : Host.Outcome State Fault Refusal := run s fun _ c => c.portLost port
/-- NAK (R63): every flit from the failed one onwards is sent again, unchanged; the 16th failure in a row ends the port. -/
def execNak (port : Nat) (s : State) : Host.Outcome State Fault Refusal :=
  run s fun _ c =>
    let p := c.port port
    if !p.up then c
    else if 15 ≤ p.nakRow then c.portLost port
    else c.modPort port fun p => { p with nakRow := p.nakRow + 1, resend := p.ctr - p.acked }
/-- Messages of MGT and CTL to the device at the other end of a port. -/
def Chip.toPeer (c : Chip) (port : Nat) (ev : Ev) : Chip := { c with outbox := c.outbox ++ [(2 ^ 17 + port, ev)] }
/-- Once every flit of the old slot is acknowledged, the sender sends KEYDONE (R72). -/
def Chip.oldSlotDone (c : Chip) (port : Nat) : Chip :=
  let p := c.port port
  if p.rolling = 1 ∧ p.oldSlotLast ≤ p.acked then (c.modPort port fun p => { p with rolling := 2 }).toPeer port (.keydone port) else c
/-- LINK_ACK (R63): flits below `upto` leave the replay buffer. -/
def execLinkAck (port upto : Nat) (s : State) : Host.Outcome State Fault Refusal :=
  run s fun _ c =>
    (c.modPort port fun p =>
      if p.acked < upto ∧ upto ≤ p.ctr then { p with acked := upto, nakRow := 0, resend := Nat.min p.resend (p.ctr - upto) } else p).oldSlotDone port
/-- The permits for a message of `n` flits, taken from the shared part (true) or from the reserve of its class (R66). -/
def Permits.take (p : Permits) (cls vi n : Nat) : Option (Permits × Bool) :=
  if n ≤ p.shared ∧ (64 ≤ vi ∨ p.held.get 0 vi + n ≤ 384) then
    some ({ p with shared := p.shared - n, held := if 64 ≤ vi then p.held else p.held.put vi (p.held.get 0 vi + n) }, true)
  else if n ≤ p.res.get 32 cls then some ({ p with res := p.res.put cls (p.res.get 32 cls - n) }, false)
  else none
/-- Permits go back to the part that they came from (R66). -/
def Permits.give (p : Permits) (cls vi n : Nat) (shared : Bool) : Permits :=
  if shared then { p with shared := Nat.min 768 (p.shared + n), held := p.held.put vi (p.held.get 0 vi - n) }
  else { p with res := p.res.put cls (Nat.min 32 (p.res.get 32 cls + n)) }
/-- The credits that a port holds for the receive pool at its other end. -/
def Port.credits (p : Port) : Permits := ⟨p.resFree, p.sharedFree, p.sharedVi⟩
/-- The credits of a port replaced. -/
def Port.setCredits (p : Port) (r : Permits) : Port := { p with resFree := r.res, sharedFree := r.shared, sharedVi := r.held }
/-- PERMIT_RETURN (R66): `n` permits go back to the part they came from; `vi` 64 is an untagged message. -/
def execPermitReturn (port cls vi n : Nat) (shared : Bool) (s : State) : Host.Outcome State Fault Refusal :=
  run s fun _ c => c.modPort port fun p => p.setCredits (p.credits.give cls vi n shared)
/-- KEY_ROLLOVER (R72) of a direction of a port. Receiving: step 1 installs the new key in the unused slot, beside the old one, and
the receiver acknowledges it. Sending: Tantalum has the receiver install the key; once that is acknowledged the new key is in the
sender's unused slot, and new flits go under it. No rollover starts before the last has ended. -/
def execKeyRollover (port : PortDir) (s : State) : Host.Outcome State Fault Refusal :=
  run s fun _ c =>
    let n := port.port
    let p := c.port n
    if !p.keyed then c
    else if port.recv then
      (if p.rxKeys.length = 1 then (c.modPort n fun p => { p with rxKeys := p.rxKeys ++ [1 - p.rxKeys.headD 0] }).toPeer n (.keyRollover ⟨n, false, true⟩) else c)
    else if port.ack then
      (if p.rolling = 3 then (c.modPort n fun p => { p with txSlot := 1 - p.txSlot, oldSlotLast := p.ctr, rolling := 1 }).oldSlotDone n else c)
    else if p.rolling = 0 then (c.modPort n fun p => { p with rolling := 3 }).toPeer n (.keyRollover ⟨n, true, false⟩)
    else c
/-- KEYDONE (R72): the receiver erases the old key and answers KEYACK; one that repeats erases nothing more. -/
def execKeydone (port : Nat) (s : State) : Host.Outcome State Fault Refusal :=
  run s fun _ c => (c.modPort port fun p => { p with rxKeys := if p.rxKeys.length = 2 then p.rxKeys.tail else p.rxKeys }).toPeer port (.keyack port)
/-- KEYACK (R72): the rollover ends. -/
def execKeyack (port : Nat) (s : State) : Host.Outcome State Fault Refusal :=
  run s fun _ c => c.modPort port fun p => if p.rolling = 2 then { p with rolling := 0 } else p
/-- Flits that one key of a direction encrypts at most (R72). -/
def keyFlits : Nat := 2 ^ 40
/-- Tantalum rolls the key of a direction while the longest message still fits under it (R72). -/
def Port.rollDue (p : Port) : Bool := p.keyed && p.rolling == 0 && decide (p.oldSlotLast + keyFlits < p.ctr + 4)

/-- The class, interface (64 for none) and flits of a message that leaves or enters the device (R62, R64; log 13). -/
def shipForm (ev : Ev) : Nat × Nat × Nat :=
  match ev with
  | .translate q | .loadRequest q | .storeRequest q | .atomicRequest q | .lockRequest q | .lkqRequest q | .pinRequest q | .claimRequest q
  | .groupClaim q | .publish q | .claimRelease q | .streamLine q _ => (clsNo (actCls q.act), q.vi, if q.data.isEmpty then 1 else 4)
  | .registerWrite .. => (2, 64, 1)
  | .handlerMessage m => (4, m.vi, 2)
  | .budgetCheck b => (5, b.u.vi, 1)
  | .cancelCopy _ _ u => (5, u.elim 64 (·.vi), 1)
  | .mcheck _ | .keyRollover _ | .getVersion _ | .getCapabilities _ | .negotiateAlgorithms _ | .getDigests _ | .getCertificate _ | .challenge _
  | .getMeasurements .. | .keyExchange _ | .finish _ | .endSession _ => (7, 64, 1)
  | .spdmResponse .. => (7, 64, 4)
  | .loadReply q .. => (1, q.vi, 4)
  | .storeAck q _ => (1, q.vi, 1)
  | .receiverFault _ (some r) => (1, r.q.vi, 1)
  | .messageArrival m => (4, m.vi, 4)
  | .taskArrive m => (4, m.vi, 2)
  | .reoffer m => (4, m.vi, 4)
  | .withdraw m => (4, m.vi, 1)
  | .messageAnswer m _ => (1, m.vi, 1)
  | .callatReply w .. => (4, w.vi, 2)
  | .backupRequest b => (5, b.u.vi, 4)
  | .winNotice u => (5, u.vi, 1)
  | .keydone _ | .keyack _ | .linkAck .. | .permitReturn .. | .nak _ => (7, 64, 0)
  | _ => (6, 64, 1)
/-- The permits for a message of `n` flits (R66). -/
def Port.takePermits (p : Port) (cls vi n : Nat) : Option Port := (p.credits.take cls vi n).map fun r => p.setCredits r.1
/-- A message leaves through a port: the port is keyed, or the message is of MGT; it holds permits for it, has room in its
replay buffer, and its key serves for that many flits more (R63, R66, R70, R72); link control needs none of these (R61, R63), and a
permit that it returns is free in the pool again. -/
def Port.ship (p : Port) (ev : Ev) : Option Port :=
  let (cls, vi, n) := shipForm ev
  if !p.up then none
  else if n = 0 then
    let p := { p with ctlSent := p.ctlSent + 1 }
    some (match ev with | .permitReturn _ cls vi n sh => { p with rx := p.rx.give cls vi n sh } | _ => p)
  else if !(p.keyed || cls == 7) || decide (512 < p.ctr - p.acked + n) || decide (p.oldSlotLast + keyFlits < p.ctr + n) then none
  else (p.takePermits cls vi n).map fun p => { p with ctr := p.ctr + n }
/-- The ports that a message may take: link control its own; messages for hosts the bridge port of the bridge device, and no
other message that port (R31, log 13). -/
def Chip.portsFor (c : Chip) (dst : Nat) : List Nat :=
  if 2 ^ 17 ≤ dst then [dst - 2 ^ 17] else c.pathPorts (dst == bridgeNode)
/-- The port by which a message for outside can leave: the first that can (log 13). -/
def Chip.shipPort (c : Chip) (dst : Nat) (ev : Ev) : Option (Nat × Port) :=
  (c.portsFor dst).findSome? fun p => ((c.port p).ship ev).map (p, ·)
/-- The classes that keep an order between two endpoints (R65). -/
def shipOrdered (ev : Ev) : Bool := let k := (shipForm ev).1; k != 1 && k != 6 && k != 7
/-- The endpoints that a message for outside goes between: its source here, and its destination (R62, R65). -/
def shipPair (ev : Ev) : Nat × Nat :=
  match ev with
  | .messageArrival m | .taskArrive m | .reoffer m | .withdraw m => (coreNode (coreOf m.src), m.dst)
  | .callatReply w .. => (0, coreNode (addrCore w.addr))
  | .backupRequest b | .budgetCheck b => (dispNode b.die, dispNode b.die)
  | .winNotice u => (dispNode (u.vi % 8), u.idx)
  | .cancelCopy xk _ _ => (dispNode (dieOf (coreOf xk)), coreOf xk)
  | _ => (0, 0)
/-- The place of the first message for outside that can leave now, with its port: an ordered message waits behind an earlier one
between the same endpoints, the others pass it (R65, R66). -/
def Chip.shipNext (c : Chip) : Option (Nat × Nat × Ev × Nat × Port) :=
  (List.range c.outbox.length).findSome? fun i => (c.outbox[i]?).bind fun m =>
    if shipOrdered m.2 && (c.outbox.take i).any (fun b => b.1 == m.1 && shipOrdered b.2 && shipPair b.2 == shipPair m.2) then none
    else (c.shipPort m.1 m.2).map fun p => (i, m.1, m.2, p.1, p.2)
/-- KEYDONE is sent again until KEYACK comes (R72). -/
def Chip.repeatKeydone (c : Chip) : Chip :=
  c.ports.foldl (fun c p => if p.2.rolling = 2 ∧ !(c.outbox.contains (2 ^ 17 + p.1, .keydone p.1)) then c.toPeer p.1 (.keydone p.1) else c) c
/-- No path remains to a place outside: every port that could carry the message is down (R60). -/
def Chip.noPath (c : Chip) (dst : Nat) : Bool := (c.portsFor dst).all fun p => (c.port p).down
/-- A request that no path remains for completes with LINKDOWN; a backup request and a power message are dropped (R60, R99, R414).
Other messages wait. -/
def Chip.linkDown (c : Chip) (ev : Ev) : Option Chip :=
  match ev with
  | .messageArrival m | .taskArrive m => some (c.send bridgeNode (unitNode m.src) .rsp (.messageAnswer m 3))
  | .backupRequest b => some (if b.note = .ask then c.send bridgeNode (dispNode b.die) .ctl (.hedgeRequestTimeout b) else c)
  | .stagger .. | .slow .. => some c
  | _ => none
/-- The first request for outside that no path remains for is completed. -/
def Chip.failNext (c : Chip) : Chip :=
  (((List.range c.outbox.length).findSome? fun i => (c.outbox[i]?).bind fun m =>
    if c.noPath m.1 then ({ c with outbox := c.outbox.eraseIdx i } : Chip).linkDown m.2 else none)).getD c
/-- A port repeats its cumulative acknowledgement until a later one supersedes it, the ports in turn (R63). -/
def Chip.repeatAck (c : Chip) : Chip :=
  let n := c.picks % 24
  let p := c.port n
  if p.up && decide (0 < p.rxCtr) then
    ({ c with shipped := c.shipped ++ [(2 ^ 17 + n, .linkAck n p.rxCtr)] } : Chip).modPort n fun p => { p with ctlSent := p.ctlSent + 1 }
  else c
/-- Tantalum's responses leave for their requesters as messages of MGT (R64, R75); while the dies are in reset no fabric port of theirs
carries them (log 9). -/
def Chip.spdmOut (c : Chip) : Chip :=
  if c.tan.outbox.isEmpty then c
  else
    let out : List (Nat × Ev) := c.tan.outbox.map fun p => (bridgeNode, .spdmResponse p.1 p.2)
    let c := { c with tan := { c.tan with outbox := [] } }
    if c.tan.stage = 3 then { c with outbox := c.outbox ++ out } else { c with shipped := c.shipped ++ out }
/-- One message for outside leaves the device, where a port can send it. -/
def Chip.ship (c : Chip) : Chip :=
  let c := c.spdmOut.repeatKeydone.repeatAck
  match c.shipNext with
  | some (i, dst, ev, p, q) => { c with outbox := c.outbox.eraseIdx i, shipped := c.shipped ++ [(dst, ev)], ports := c.ports.put p q }
  | none => c.failNext
/-- The port by which a message from a host, or from another device, reaches the device: the bridge port for a host at the bridge
device, else the first port that carries its class; none where no port does (R31, R70). -/
def Chip.entryPort (c : Chip) (host : Bool) (ev : Ev) : Option Nat :=
  (c.pathPorts host).find? fun p => (c.port p).up && ((c.port p).keyed || (shipForm ev).1 == 7)
/-- A message has come in by a port: its flits are counted and acknowledged, and its permits go back to their part of the receive pool
once its buffer is free (R63, R66). The part is the one that the pool's own count gives (log 13). -/
def Chip.received (c : Chip) (port : Nat) (ev : Ev) : Chip :=
  let (cls, vi, n) := shipForm ev
  let (rx, shared) := ((c.port port).rx.take cls vi n).getD ((c.port port).rx, true)
  let c := c.modPort port fun p => { p with rxCtr := p.rxCtr + n, rxRow := 0, rx := rx }
  (c.toPeer port (.linkAck port (c.port port).rxCtr)).toPeer port (.permitReturn port cls vi n shared)
/-- A flit that comes in fails authentication: it is answered with a NAK, and its sender sends it again; the 16th failure of one flit in
a row ends the port (R63). -/
def Chip.authFailed (c : Chip) (port : Nat) : Chip :=
  let c := { c with frees := c.frees + 1 }
  if 15 ≤ (c.port port).rxRow then c.portLost port else (c.modPort port fun p => { p with rxRow := p.rxRow + 1 }).toPeer port (.nak port)

/-! ### Boot and SPDM (R73 to R75) -/

/-- The manifest in Tantalum's flash (R73, log 9). -/
def bootManifest : Manifest := ⟨Config.manifest, Config.manifestSignature, Config.manifestKey, Config.manifestVersion, Config.manifestHashes⟩
/-- The images in flash, in the manifest's order (R73, log 9). -/
def bootFlash : List (Option (List Byte)) := (List.range Config.manifestHashes.length).map Config.flash
/-- The first image that is absent (5) or whose hash is not the manifest's (4), with its index (R73, R74). -/
def badImage (m : Manifest) (flash : List (Option (List Byte))) : Option (Nat × Nat) :=
  (List.range m.hashes.length).findSome? fun i =>
    match flash.getD i none with
    | none => some (5, i)
    | some d => if Config.sha256 d = m.hashes.getD i 0 then none else some (4, i)
/-- The checks of boot in their order: FAIL, IMAGE and STAGE (R73, R74). -/
def bootChecks (m : Manifest) (flash : List (Option (List Byte))) : Nat × Nat × Nat :=
  if !Config.ecdsaP256 (Config.sha256 m.text) m.signature m.key then (1, 0, 0)
  else if Config.sha256 m.key ≠ Config.fusedKeyHash then (2, 0, 0)
  else if m.version < Config.fusedMinVersion then (3, 0, 0)
  else match badImage m flash with
    | some (f, i) => (f, i % 256, 1)
    | none => (0, 0, 3)
/-- The measurements: boot ROM, manifest, then the images in manifest order (R73, R75); an absent image has none, and takes no number
(log 9). -/
def bootMeasurements (m : Manifest) (flash : List (Option (List Byte))) : List (BitVec 256) :=
  [Config.sha256 Config.bootRom, Config.sha256 m.text] ++ ((List.range m.hashes.length).filterMap (flash.getD · none)).map Config.sha256
/-- TANTALUM_BOOT (R73, R74): STAGE 3 releases the compute dies; a failed check leaves them in reset for good. The images are hashed
and kept as measurements whichever check fails (log 9). -/
def execTantalumBoot (manifest : Manifest) (flash : List (Option (List Byte))) (s : State) : Host.Outcome State Fault Refusal :=
  run s fun _ c =>
    if c.tan.stage = 3 ∨ c.tan.fail ≠ 0 then c
    else
      let r := bootChecks manifest flash
      { c with tan := { c.tan with fail := r.1, image := r.2.1, stage := r.2.2, meas := bootMeasurements manifest flash } }
/-- TSTAT (R74). -/
def Tantalum.tstat (t : Tantalum) : W64 := w64 (t.image * 2 ^ 16 + t.fail * 2 ^ 8 + t.stage)
/-- A response goes to a requester (R75). -/
def Chip.spdm (c : Chip) (requester : Nat) (r : SpdmRsp) (session : Nat → Nat) : Chip :=
  { c with tan := { c.tan with outbox := c.tan.outbox ++ [(requester, r)],
                               sessions := c.tan.sessions.put requester (session (c.tan.sessions.get 0 requester)) } }
/-- A response whose payload the spec does not give (log 9). -/
def Chip.spdmFree (c : Chip) (requester : Nat) (f : List Byte → SpdmRsp) (session : Nat → Nat) : Chip :=
  ({ c with frees := c.frees + 1 } : Chip).spdm requester (f (Config.spdm requester c.frees)) session
/-- GET_VERSION (R75): SPDM 1.3. -/
def execGetVersion (requester : Nat) (s : State) : Host.Outcome State Fault Refusal := run s fun _ c => c.spdm requester (.version 0x13) id
/-- GET_CAPABILITIES (R75). -/
def execGetCapabilities (requester : Nat) (s : State) : Host.Outcome State Fault Refusal := run s fun _ c => c.spdmFree requester .capabilities id
/-- NEGOTIATE_ALGORITHMS (R75): ECDSA P-256 and SHA-256 are the only ones. -/
def execNegotiateAlgorithms (requester : Nat) (s : State) : Host.Outcome State Fault Refusal :=
  run s fun _ c => c.spdm requester (.algorithms [.ecdsaP256, .sha256]) id
/-- GET_DIGESTS (R75): the SHA-256 digest of the certificate. -/
def execGetDigests (requester : Nat) (s : State) : Host.Outcome State Fault Refusal :=
  run s fun _ c => c.spdm requester (.digests (Config.sha256 Config.certificate)) id
/-- GET_CERTIFICATE (R75). -/
def execGetCertificate (requester : Nat) (s : State) : Host.Outcome State Fault Refusal :=
  run s fun _ c => c.spdm requester (.certificate Config.certificate) id
/-- CHALLENGE (R75): an ECDSA P-256 signature. -/
def execChallenge (requester : Nat) (s : State) : Host.Outcome State Fault Refusal := run s fun _ c => c.spdmFree requester .challengeAuth id
/-- GET_MEASUREMENTS (R73, R75): the SHA-256 hash kept at boot; measurement 1 is the boot ROM. -/
def execGetMeasurements (requester index : Nat) (s : State) : Host.Outcome State Fault Refusal :=
  run s fun _ c => c.spdm requester (.measurement index (if index = 0 then none else c.tan.meas[index - 1]?)) id
/-- KEY_EXCHANGE (R75): a session with the requester, its own, is opened, to be confirmed by FINISH (log 9). -/
def execKeyExchange (requester : Nat) (s : State) : Host.Outcome State Fault Refusal :=
  run s fun _ c => c.spdmFree requester .keyExchange fun _ => 1
/-- FINISH (R75). -/
def execFinish (requester : Nat) (s : State) : Host.Outcome State Fault Refusal :=
  run s fun _ c => c.spdmFree requester .finish fun n => if n = 0 then 0 else 2
/-- END_SESSION (R75). -/
def execEndSession (requester : Nat) (s : State) : Host.Outcome State Fault Refusal := run s fun _ c => c.spdm requester .endSession fun _ => 0

/-! ### The fatal-error dump (R452, R453) -/

/-- COREPWR of a physical core as read (R403). -/
def Chip.corepwr (c : Chip) (p : Nat) : W64 :=
  let k := c.pcore p
  w64 (bn (c.coreBusy p) * 2 ^ 15 + bn k.off * 2 ^ 14 + bn k.hot * 2 ^ 13 + k.deny * 2 ^ 8 + k.thr * 2 ^ 4 + k.dcur * 2 ^ 2 + k.dreq)
/-- The words of a physical core in the dump: STATUS, CAUSE, EPC, TVAL and CTXID of its contexts, and COREPWR. -/
def Chip.dumpCore (c : Chip) (p : Nat) : List Byte :=
  let ck := c.logical p
  ((List.range 8).flatMap fun n =>
    let xk := ck * 8 + n
    let x := c.ctx xk
    leBytes 8 (x.status xk).toNat ++ leBytes 8 x.cause.toNat ++ leBytes 8 x.epc.toNat ++ leBytes 8 x.tval.toNat ++ leBytes 8 (ctxId c.group xk)) ++
  leBytes 8 (c.corepwr p).toNat
/-- The section of a die that could be read; the forms of the dispatcher's and the lock tables' state are open (log 14). -/
def Chip.dumpDie (e : Env) (c : Chip) (base d : Nat) : Chip :=
  let c := ((c.zero base (14 * 2 ^ 20)).mess base (2 ^ 20)).mess (base + 0x200000) (2 ^ 20)
  let c := c.put (base + 0x100000) (rdN e c (bits (c.die d).fbbase.toNat 15 25 * 2 ^ 15) 32768)
  (List.range 768).foldl (fun k p => k.put (base + 0x400000 + 1024 * p) (c.dumpCore (d * 768 + p))) c
/-- FATAL_ERROR (R452, R453): the dump is written where DUMPCTL names a region and none has been written; the package stops. -/
def execFatalError (cls dies : Nat) (s : State) : Host.Outcome State Fault Refusal :=
  run s fun e c =>
    let base := bits c.dumpBase.toNat 27 13 * 2 ^ 27
    if c.dumpValid ∨ base = 0 then { c with stopped := true }
    else
      let words : List Nat := [1, e.now, cls, dies % 256, c.tan.tstat.toNat]
      let c := (c.zero base (2 ^ 27)).put base (words.flatMap (leBytes 8))
      let c := (List.range 8).foldl (fun k d => if bit dies d then k.dumpDie e (base + 0x100000 + 0xE00000 * d) d else k) c
      { c with dumpValid := true, stopped := true }

end Sys2Proof.Machine
end

