-- ==== Sys2Proof/Machine/Host.lean ====
section
/-! DEFINITION. The aperture of the device: the registers a host or system software writes and reads, VICTL with the life of
an interface, and REGISTER_WRITE (R7, R8, R32 to R41, R82, R83, R100, R101, R160, R164, R169, R333, R352, R372, R380, R385,
R398, R402, R403, R409, R413, R444, R452). -/
namespace Sys2Proof.Machine
open Sys2Proof

/-! ### The life of an interface (R37) -/

/-- An entry of the waiting-task table without what the interface has there: armed by it, or fired for it; a task that another
interface's arming has fired stays (R357, log 89). -/
def WTask.unbind (t : WTask) (vi : Nat) : WTask := { t with armed := t.armed && t.vi ≠ vi, fired := t.fired.filter (·.vi ≠ vi) }
/-- The refused watch tasks of an interface that a slice holds are withdrawn, and those on their way disowned (R347, R359). -/
def Chip.withdrawVi (c : Chip) (vi : Nat) : Chip :=
  let mine (m : MuMsg) : Bool := m.m.vi == vi
  let go := (c.homes.flatMap fun p => p.2.msgs).filter fun m => mine m && m.held && !m.inflight
  go.foldl (fun c m => (c.withdrawMsg m.m).offerNext 0 m.m) { c with homes := c.homes.map fun (p : Nat × Home) => (p.1, { p.2 with
    msgs := updAll mine (fun m => { m with gone := true }) (p.2.msgs.filter fun m => !(mine m && m.held && !m.inflight)) }) }
/-- What an interface has bound goes when its teardown starts: its mailboxes, stubs included, its watch bindings with the tasks that
their slices hold, and its armed counters with their fired tasks (R347, R353, R358, log 89). -/
def Chip.unbindAll (c : Chip) (vi : Nat) : Chip :=
  let boxes (k : Core) : Core := { k with
    mbs := k.mbs.filter fun p => p.2.vi ≠ vi
    wt := k.wt.map fun (p : Nat × WTask) => (p.1, p.2.unbind vi) }
  ({ c with cores := c.cores.map (fun (p : Nat × Core) => (p.1, boxes p.2)),
            homes := c.homes.map fun (p : Nat × Home) => (p.1, { p.2 with watches := p.2.watches.filter (·.vi ≠ vi) }) } : Chip).withdrawVi vi
/-- A write of VICTL.EN: enabling makes a new key, disabling starts the teardown (R37, R444). -/
def execVictl (vi : Nat) (value : W64) (s : State) : Host.Outcome State Fault Refusal :=
  run s fun e c =>
    let v := c.vi vi
    if bit value.toNat 0 && !v.en then
      (if v.quiesced then (c.modVi vi fun v => { v with en := true, quiesced := false, keyWait := true, ctr := {} }).send tanNode tanNode .mgt (.keyInstall vi) else c)
    else if !bit value.toNat 0 && v.en then
      let c := (c.modVi vi fun v => { v with en := false }).unbindAll vi
      let c := c.cancelLaunches e vi ((v.launches.filter fun l => l.st != .complete).map (·.order))
      (v.levels.filter fun l => !l.complete).foldl (fun c l => c.cancelLevel e vi l.kind l.id) c
    else c
/-- KEY_INSTALL (R37, R76): a new key in the interface's slot of all 16 HBM controllers, kept as a generation. -/
def execKeyInstall (vi : Nat) (s : State) : Host.Outcome State Fault Refusal :=
  run s fun _ c => c.modVi vi fun v => if v.keyWait then { v with keyv := true, keyWait := false, keySlots := List.replicate 16 (v.gen + 1), gen := v.gen + 1 } else v
/-- The interface that a message in flight is tagged with. -/
def Ev.ofVi (ev : Ev) : Option Nat :=
  match ev with
  | .receiverFault _ (some r) => some r.q.vi
  | .faultRetry q | .pinRequest q | .pinRetry q | .translate q | .loadRequest q | .loadReply q .. | .storeRequest q | .storeAck q _
  | .handleUpdate q | .waddrRetry q | .scopeMiss q | .atomicRequest q | .atomicReply q .. | .atomicResend q | .lockRequest q
  | .lkqRequest q | .lockTableRetry q | .enqueued q | .probe q .. | .probeResult q .. | .rwiArrival q | .watchRequest q | .watchRetry q
  | .claimRequest q | .claimAnswer q _ | .claimRetry q | .commitBusyRetry q | .streamLine q _ | .publish q | .groupClaim q
  | .claimRelease q => some q.vi
  | .messageArrival m | .reoffer m | .withdraw m | .messageAnswer m _ | .taskArrive m => some m.vi
  | .hmsgDelivery m | .hmsgRetry m => some m.vi
  | .handlerMessage m => some m.vi
  | .callatReply w .. => some w.vi
  | .pinReply q .. => some q.vi
  | .descriptorRead u | .winNotice u => some u.vi
  | .budgetCheck b | .backupRequest b => some b.u.vi
  | .writeBack w => some w.vi
  | .flush _ v .. | .flushAck _ v _ | .inval _ v .. | .deadlockReport v .. => some v
  | .lkLink w _ _ | .grant w .. | .handoff _ w _ | .lkRelease _ w _ | .waitlink w _ | .lkBreak w _ | .breakAck _ w .. => some w.vi
  | .cancelCopy _ _ (some u) => some u.vi
  | _ => none
/-- The same with the package: a queue's pointer messages are those of its interface (R42). -/
def Chip.viOf (c : Chip) (ev : Ev) : Option Nat :=
  match ev with
  | .qtail q _ | .qchead q _ => some (c.queue q).vi
  | _ => ev.ofVi
/-- The core holds a message of the interface, or work that waits there for it. -/
def Core.keeps (k : Core) (vi : Nat) : Bool :=
  k.msgs.any (fun m => m.m.vi == vi) || k.tasks.any (fun t => t.vi == vi) || k.hslots.any (fun m => m.vi == vi) ||
    k.hq.any (fun w => w.vi == vi) || k.repairs.any (fun q => q.vi == vi) || k.late.any (fun l => l.q.vi == vi)
/-- No context and no message of the interface remains (R37). -/
def Chip.tornDown (c : Chip) (vi : Nat) : Bool :=
  let v := c.vi vi
  !v.en && !v.quiesced && !(c.ctxs.any fun p => p.2.vi == vi && (p.2.st != .idle || p.2.resv)) && !(c.net.any fun f => c.viOf f.ev == some vi) &&
    !(c.outbox.any fun m => m.2.ofVi == some vi) && !(c.dies.any fun d => d.2.reclass.any fun r => r.vi == vi && !r.reqs.isEmpty) &&
    !(c.cores.any fun p => p.2.keeps vi) && !(c.homes.any fun p => p.2.msgs.any fun m => m.m.vi == vi)
/-- TEARDOWN_COMPLETE (R37): the key is destroyed, and what the interface left in HBM cannot be read again. -/
def execTeardownComplete (vi : Nat) (s : State) : Host.Outcome State Fault Refusal :=
  run s fun _ c =>
    if !c.tornDown vi then c
    else
      let lines := (c.tags.filter fun p => p.2 == vi + 1).map (·.1)
      let c := lines.foldl (fun c l => c.mess (l * 128) 128) { c with tags := c.tags.filter fun p => p.2 ≠ vi + 1 }
      c.modVi vi fun v => { v with keyv := false, keyWait := false, quiesced := true, keySlots := [] }

/-! ### Registers of the privileged window and of the interfaces' windows -/

/-- The bits of `v` in [lo + n - 1 : lo], in place. -/
def keep (v : W64) (lo n : Nat) : Nat := bits v.toNat lo n * 2 ^ lo
/-- QCTL as read (R38). -/
def Queue.ctl (q : Queue) : W64 :=
  w64 (q.err * 2 ^ 32 + q.csz * 2 ^ 16 + q.qsz * 2 ^ 12 + q.pmax * 2 ^ 8 + q.vi * 4 + bn q.run * 2 + bn q.en)
/-- QPTR as read (R39). -/
def Queue.qptr (q : Queue) : W64 := w64 (q.qhead.toNat * 2 ^ 32 + q.qtail.toNat)
/-- CPTR as read (R39). -/
def Queue.cptr (q : Queue) : W64 := w64 (q.ctail.toNat * 2 ^ 32 + q.chead.toNat)
/-- VICTL as read (R37). -/
def Vi.ctl (v : Vi) : W64 := w64 (bn v.keyv * 4 + bn v.quiesced * 2 + bn v.en)
/-- ROWPWR as read (R402). -/
def Chip.rowpwr (c : Chip) (r : Nat) : W64 :=
  let w := c.row r
  w64 (w.vcur * 2 ^ 40 + w.vreq * 2 ^ 32 + bn (c.rowBusy r) * 2 ^ 31 + bn w.boostreq * 2 ^ 30 + bn w.boosted * 2 ^ 29 + bn w.clim * 2 ^ 28 +
    w.ceil * 2 ^ 24 + w.eceil * 2 ^ 20 + w.lvl * 2 ^ 16 + w.deny)
/-- PWRSTAT as read (R413). -/
def Power.stat (p : Power) : W64 :=
  w64 (p.pwr * 2 ^ 32 + bn p.emerg * 2 ^ 31 + bn (decide (0 < p.slowLeft)) * 2 ^ 30 + p.slowLeft * 2 ^ 26 + p.slowFl * 2 ^ 24 + p.denycnt)
/-- FABPWR as read (R413): CMD reads zero. -/
def Power.fab (p : Power) : W64 := w64 (p.fabMask * 2 ^ 48 + p.fabSlotw * 2 ^ 32 + p.fabNslot * 2 ^ 28 + p.fabSlowd * 2 ^ 24 + p.fabSlowf * 2 ^ 22)
/-- The counters of an interface by number (R444). -/
def Counters.get (k : Counters) (n : Nat) : W64 :=
  match n with
  | 0 => k.hedgedeny | 1 => k.hedgedrop | 2 => k.scopemiss | 3 => k.lkdeadlock | 4 => k.lkbreak | 5 => k.lkskip | 6 => k.uwon | 7 => k.ufail
  | 8 => k.ucancel | 9 => k.cbusy | 10 => k.lastfail | _ => 0

/-- A read in the privileged window, off 0x0_0000 to 0xF_FFFF (R32): a reserved offset reads zero (R8). -/
def privRead (e : Env) (c : Chip) (off : Nat) : W64 :=
  if off < 0x40000 then
    let q := c.queue (off / 64)
    (match off % 64 with | 0x00 => q.ctl | 0x08 => q.qbase | 0x10 => q.cbase | 0x18 => q.qptr | 0x20 => q.cptr | _ => 0)
  else if off < 0x40200 then (c.vi ((off - 0x40000) / 8)).ctl
  else if off = 0x41000 then c.tan.tstat
  else if off < 0x42000 then 0
  else if off < 0x43000 then
    let v := c.vi ((off - 0x42000) / 64)
    (match off % 64 with | 0x00 => v.hedgecfg | 0x08 => BitVec.ofInt 64 v.level | 0x10 => w64 v.cap | 0x18 => w64 v.fill | 0x20 => w64 v.drrw | _ => 0)
  else if off < 0x43400 then
    let v := c.vi ((off - 0x43000) / 16)
    (if off % 16 = 0 then v.ptbase else if off % 16 = 8 then b64 v.pten else 0)
  else if off < 0x43480 then c.slset.get 0 ((off - 0x43400) / 8)
  else if off < 0x43500 then 0
  else if off < 0x43540 then
    let d := c.die ((off - 0x43500) / 8)
    w64 (bn d.splitPend * 256 + (if d.splitPend then d.splitNew else d.split))
  else if off < 0x43600 then 0
  else if off < 0x43800 then (c.vi ((off - 0x43600) / 8)).lklog
  else if off < 0x43A00 then
    let n := (off - 0x43800) / 64
    let d := c.die n
    (match off % 64 with
     | 0x00 => d.avsel | 0x08 => w64 (d.avstatus * 256 + bn (d.avpend != 0) * 128) | 0x10 => d.avspill | 0x18 => d.avsave | 0x20 => d.avarea
     | 0x28 => (c.mbox (d.avCore n) d.avMb).cfg | _ => 0)
  else if off < 0x43C00 then (c.vi ((off - 0x43A00) / 8)).vitrap
  else if off < 0x43D00 then
    let d := c.die ((off - 0x43C00) / 32)
    (match off % 32 with | 0x00 => d.fbbase | 0x08 => d.fbstat | _ => 0)
  else if off < 0x44100 then 0
  else if off < 0x44140 then
    let d := c.die ((off - 0x44100) / 8)
    w64 (d.ctxstatus * 2 ^ 32 + bn (d.ctxPend != 0) * 2 ^ 31 + d.ctxctl.toNat)
  else if off < 0x44200 then 0
  else if off < 0x44400 then
    let v := c.vi ((off - 0x44200) / 8)
    w64 (bn v.tlbAll * 2 ^ 63 + bn (v.tlbActive e.now) * 2 ^ 62 + v.tlbAddr.toNat)
  else if off = 0x44400 then w64 (bn c.dumpValid * 2 ^ 63 + c.dumpBase.toNat)
  else if off < 0x50000 then 0
  else if off < 0x50C00 then c.rowpwr ((off - 0x50000) / 8)
  else if off < 0x51000 then 0
  else if off < 0x5D000 then c.corepwr ((off - 0x51000) / 8)
  else if off < 0x5D100 then
    let d := c.die ((off - 0x5D000) / 32)
    (match off % 32 with | 0x00 => d.ramp0 | 0x08 => d.ramp1 | 0x10 => w64 d.dwell | _ => 0)
  else if off = 0x5D100 then c.power.cfg
  else if off = 0x5D108 then c.power.stat
  else if off = 0x5D110 then c.power.fab
  else if off < 0x80000 then 0
  else if off < 0x88000 then (if off % 0x1000 < 0xC00 then c.cmapEntry ((off - 0x80000) / 0x1000) (off % 0x1000 / 4) else 0)
  else if off < 0x88040 then
    let d := c.die ((off - 0x88000) / 8)
    w64 (bn d.swap.isSome * 2 ^ 32 + d.swpReg.toNat)
  else 0
/-- A read in the window of interface `v` (R36, R40, R444). -/
def viRead (c : Chip) (v off : Nat) : W64 :=
  if off < 0x40000 then
    match c.slotQueue v (off / 64) with
    | some q =>
      let k := c.queue q
      (match off % 64 with | 0x00 => w64 k.qhead.toNat | 0x08 => w64 k.ctail.toNat | 0x10 => k.ctl | 0x18 => k.qptr | 0x20 => k.cptr | _ => 0)
    | none => 0
  else if off % 8 = 0 then (c.vi v).ctr.get ((off - 0x40000) / 8) else 0
/-- A read at an offset of the device's aperture (R32, R35): an offset aligned to the register; elsewhere it reads zero. -/
def hostRead (e : Env) (c : Chip) (off : Nat) : W64 :=
  if off < 0x100000 then (if off % 8 = 0 ∨ (0x80000 ≤ off ∧ off < 0x88000 ∧ off % 4 = 0) then privRead e c off else 0)
  else if 0x1000000 ≤ off ∧ off < 0x5000000 then (if off % 8 = 0 then viRead c ((off - 0x1000000) / 0x100000) (off % 0x100000) else 0)
  else 0

/-- The event that a write at an offset is, for a register with behaviour of its own. -/
def hostEvent (off : Nat) (v : W64) : Option Ev :=
  if 0x1000000 ≤ off ∧ off < 0x5000000 then
    let w := (off - 0x1000000) / 0x100000
    let o := off % 0x100000
    (if o < 0x40000 ∧ o % 64 = 0 then some (.tailw w (o / 64) v) else if o < 0x40000 ∧ o % 64 = 8 then some (.cheadw w (o / 64) v) else none)
  else if off % 8 ≠ 0 then none
  else if off < 0x40000 then (if off % 64 = 0 then some (.qctl (off / 64) v) else none)
  else if off < 0x40200 then some (.victl ((off - 0x40000) / 8) v)
  else if 0x43500 ≤ off ∧ off < 0x43540 then some (.srsplit ((off - 0x43500) / 8) v)
  else if 0x43C00 ≤ off ∧ off < 0x43D00 ∧ off % 32 = 0x10 then some (.fback ((off - 0x43C00) / 32) v)
  else if 0x44200 ≤ off ∧ off < 0x44400 then some (.tlbcmd ((off - 0x44200) / 8) v)
  else if 0x50000 ≤ off ∧ off < 0x50C00 then some (.rowpwr ((off - 0x50000) / 8) v)
  else if 0x51000 ≤ off ∧ off < 0x5D000 then some (.corepwr ((off - 0x51000) / 8) v)
  else if off = 0x5D108 then some (.emerg v)
  else if off = 0x5D110 ∧ v.toNat % 8 = 1 then some (.fabpwrStagger v)
  else if off = 0x5D110 ∧ v.toNat % 8 = 2 then some (.fabpwrSlow v)
  else if 0x88000 ≤ off ∧ off < 0x88040 then some (.cmapswp ((off - 0x88000) / 8) v)
  else none

/-- A write of a register without behaviour of its own: its RW fields (R7, R8). -/
def regWrite (c : Chip) (off : Nat) (v : W64) : Chip :=
  let n := v.toNat
  if off % 8 ≠ 0 then c
  else if off < 0x40000 then c.modQueue (off / 64) fun q =>
    (match off % 64 with | 0x08 => { q with qbase := w64 (n % 2 ^ 52) } | 0x10 => { q with cbase := w64 (n % 2 ^ 52) } | _ => q)
  else if 0x42000 ≤ off ∧ off < 0x43000 then c.modVi ((off - 0x42000) / 64) fun w =>
    (match off % 64 with
     | 0x00 => { w with hedgecfg := w64 (keep v 44 4 + keep v 32 10 + keep v 24 4 + keep v 16 2 + keep v 0 1) }
     | 0x08 => { w with level := v.toInt }
     | 0x10 => { w with cap := n % 2 ^ 48 }
     | 0x18 => { w with fill := n % 2 ^ 32 }
     | 0x20 => { w with drrw := n % 256 }
     | _ => w)
  else if 0x43000 ≤ off ∧ off < 0x43400 then c.modVi ((off - 0x43000) / 16) fun w =>
    if off % 16 = 0 then { w with ptbase := w64 (keep v 15 25) } else { w with pten := bit n 0 }
  else if 0x43400 ≤ off ∧ off < 0x43480 then { c with slset := c.slset.put ((off - 0x43400) / 8) (w64 (n % 2 ^ 12)) }
  else if 0x43600 ≤ off ∧ off < 0x43800 then c.modVi ((off - 0x43600) / 8) fun w => { w with lklog := w64 (keep v 13 39 + keep v 0 1) }
  else if 0x43800 ≤ off ∧ off < 0x43A00 then c.modDie ((off - 0x43800) / 64) fun d =>
    (match off % 64 with
     | 0x00 => { d with avsel := w64 (n % 2 ^ 14) }
     | 0x08 => if d.avpend = 0 ∧ 1 ≤ n % 8 ∧ n % 8 ≤ 5 then { d with avpend := n % 8 } else d
     | 0x10 => { d with avspill := w64 (keep v 12 40 + keep v 0 5) }
     | 0x18 => { d with avsave := w64 (keep v 7 45) }
     | 0x20 => { d with avarea := w64 (n % 2 ^ 18) }
     | _ => d)
  else if 0x43A00 ≤ off ∧ off < 0x43C00 then c.modVi ((off - 0x43A00) / 8) fun w => { w with vitrap := w64 (keep v 2 50) }
  else if 0x43C00 ≤ off ∧ off < 0x43D00 then c.modDie ((off - 0x43C00) / 32) fun d =>
    (match off % 32 with | 0x00 => { d with fbbase := w64 (keep v 15 25) } | 0x08 => d.setFbstat v | _ => d)
  else if 0x44100 ≤ off ∧ off < 0x44140 then c.modDie ((off - 0x44100) / 8) fun d =>
    if d.ctxPend ≠ 0 then d
    else { d with ctxctl := w64 (keep v 21 3 + keep v 0 10), ctxPend := if 1 ≤ bits n 24 3 ∧ bits n 24 3 ≤ 3 then bits n 24 3 else 0 }
  else if off = 0x44400 then { c with dumpBase := w64 (keep v 27 13), dumpValid := c.dumpValid && !bit n 63 }
  else if 0x5D000 ≤ off ∧ off < 0x5D100 then c.modDie ((off - 0x5D000) / 32) fun d =>
    (match off % 32 with
     | 0x00 => if rampOk v d.ramp1 then { d with ramp0 := v } else d
     | 0x08 => if rampOk d.ramp0 v then { d with ramp1 := v } else d
     | 0x10 => { d with dwell := n % 256 }
     | _ => d)
  else if off = 0x5D100 then { c with power := { c.power with cfg := w64 (keep v 9 55) } }
  else if off = 0x5D110 then { c with power := c.power.setFab n }
  else c
/-- REGISTER_WRITE (R7, R32): a write at an offset of the device's aperture; a register with behaviour of its own acts in the next step. -/
def execRegisterWrite (offset : Nat) (value : W64) (s : State) : Host.Outcome State Fault Refusal :=
  run s fun _ c => match hostEvent offset value with
    | some ev => { c with inputs := ev :: c.inputs }
    | none => if offset < 0x100000 then regWrite c offset value else c

end Sys2Proof.Machine
end

