-- ==== Sys2Proof/Machine/Dispatch.lean ====
section
/-! DEFINITION. One arm per row of the opcode table: the meaning of every instruction word and of every event. -/
namespace Sys2Proof.Machine
open Sys2Proof

def exec (i : Instr) (s : State) : Host.Outcome State Fault Refusal :=
  match i with
  | .add d a b => Sys2Proof.Machine.execAdd d a b s
  | .sub d a b => Sys2Proof.Machine.execSub d a b s
  | .and d a b => Sys2Proof.Machine.execAnd d a b s
  | .andn d a b => Sys2Proof.Machine.execAndn d a b s
  | .or d a b => Sys2Proof.Machine.execOr d a b s
  | .xor d a b => Sys2Proof.Machine.execXor d a b s
  | .sll d a b => Sys2Proof.Machine.execSll d a b s
  | .srl d a b => Sys2Proof.Machine.execSrl d a b s
  | .sra d a b => Sys2Proof.Machine.execSra d a b s
  | .mul d a b => Sys2Proof.Machine.execMul d a b s
  | .mulh d a b => Sys2Proof.Machine.execMulh d a b s
  | .mulhn d a b => Sys2Proof.Machine.execMulhn d a b s
  | .div d a b => Sys2Proof.Machine.execDiv d a b s
  | .divn d a b => Sys2Proof.Machine.execDivn d a b s
  | .rem d a b => Sys2Proof.Machine.execRem d a b s
  | .remn d a b => Sys2Proof.Machine.execRemn d a b s
  | .min d a b => Sys2Proof.Machine.execMin d a b s
  | .max d a b => Sys2Proof.Machine.execMax d a b s
  | .minn d a b => Sys2Proof.Machine.execMinn d a b s
  | .maxn d a b => Sys2Proof.Machine.execMaxn d a b s
  | .slt d a b => Sys2Proof.Machine.execSlt d a b s
  | .sltn d a b => Sys2Proof.Machine.execSltn d a b s
  | .seq d a b => Sys2Proof.Machine.execSeq d a b s
  | .clz d a => Sys2Proof.Machine.execClz d a s
  | .ctz d a => Sys2Proof.Machine.execCtz d a s
  | .popc d a => Sys2Proof.Machine.execPopc d a s
  | .bext d a b => Sys2Proof.Machine.execBext d a b s
  | .bins d a b => Sys2Proof.Machine.execBins d a b s
  | .addi d a im => Sys2Proof.Machine.execAddi d a im s
  | .andi d a im => Sys2Proof.Machine.execAndi d a im s
  | .ori d a im => Sys2Proof.Machine.execOri d a im s
  | .xori d a im => Sys2Proof.Machine.execXori d a im s
  | .slti d a im => Sys2Proof.Machine.execSlti d a im s
  | .sltin d a im => Sys2Proof.Machine.execSltin d a im s
  | .slli d a s1 => Sys2Proof.Machine.execSlli d a s1 s
  | .srli d a s1 => Sys2Proof.Machine.execSrli d a s1 s
  | .srai d a s1 => Sys2Proof.Machine.execSrai d a s1 s
  | .lui d im => Sys2Proof.Machine.execLui d im s
  | .apc d im => Sys2Proof.Machine.execApc d im s
  | .jal d o => Sys2Proof.Machine.execJal d o s
  | .jalr d a im => Sys2Proof.Machine.execJalr d a im s
  | .beq a b o => Sys2Proof.Machine.execBeq a b o s
  | .bne a b o => Sys2Proof.Machine.execBne a b o s
  | .blt a b o => Sys2Proof.Machine.execBlt a b o s
  | .bge a b o => Sys2Proof.Machine.execBge a b o s
  | .bltn a b o => Sys2Proof.Machine.execBltn a b o s
  | .bgen a b o => Sys2Proof.Machine.execBgen a b o s
  | .lb d a o => Sys2Proof.Machine.execLb d a o s
  | .lbn d a o => Sys2Proof.Machine.execLbn d a o s
  | .lh d a o => Sys2Proof.Machine.execLh d a o s
  | .lhn d a o => Sys2Proof.Machine.execLhn d a o s
  | .lw d a o => Sys2Proof.Machine.execLw d a o s
  | .lwn d a o => Sys2Proof.Machine.execLwn d a o s
  | .ld d a o => Sys2Proof.Machine.execLd d a o s
  | .sb s1 a o => Sys2Proof.Machine.execSb s1 a o s
  | .sh s1 a o => Sys2Proof.Machine.execSh s1 a o s
  | .sw s1 a o => Sys2Proof.Machine.execSw s1 a o s
  | .sd s1 a o => Sys2Proof.Machine.execSd s1 a o s
  | .stv d a b => Sys2Proof.Machine.execStv d a b s
  | .pref a => Sys2Proof.Machine.execPref a s
  | .l1wb a => Sys2Proof.Machine.execL1wb a s
  | .l1inv a => Sys2Proof.Machine.execL1inv a s
  | .hnew d a b => Sys2Proof.Machine.execHnew d a b s
  | .hgive d a b => Sys2Proof.Machine.execHgive d a b s
  | .hrev a => Sys2Proof.Machine.execHrev a s
  | .hchk d a => Sys2Proof.Machine.execHchk d a s
  | .fadd d a b t => Sys2Proof.Machine.execFadd d a b t s
  | .fsub d a b t => Sys2Proof.Machine.execFsub d a b t s
  | .fmul d a b t => Sys2Proof.Machine.execFmul d a b t s
  | .ffma d a b t => Sys2Proof.Machine.execFfma d a b t s
  | .ffms d a b t => Sys2Proof.Machine.execFfms d a b t s
  | .fdiv d a b t => Sys2Proof.Machine.execFdiv d a b t s
  | .fsqrt d a t => Sys2Proof.Machine.execFsqrt d a t s
  | .fmin d a b t => Sys2Proof.Machine.execFmin d a b t s
  | .fmax d a b t => Sys2Proof.Machine.execFmax d a b t s
  | .fceq d a b t => Sys2Proof.Machine.execFceq d a b t s
  | .fclt d a b t => Sys2Proof.Machine.execFclt d a b t s
  | .fcle d a b t => Sys2Proof.Machine.execFcle d a b t s
  | .fcvt d a s1 t => Sys2Proof.Machine.execFcvt d a s1 t s
  | .fclass d a t => Sys2Proof.Machine.execFclass d a t s
  | .vadd d a b k t => Sys2Proof.Machine.execVadd d a b k t s
  | .vsub d a b k t => Sys2Proof.Machine.execVsub d a b k t s
  | .vmul d a b k t => Sys2Proof.Machine.execVmul d a b k t s
  | .vfma d a b k t => Sys2Proof.Machine.execVfma d a b k t s
  | .vfms d a b k t => Sys2Proof.Machine.execVfms d a b k t s
  | .vmin d a b k t => Sys2Proof.Machine.execVmin d a b k t s
  | .vmax d a b k t => Sys2Proof.Machine.execVmax d a b k t s
  | .vabs d a k t => Sys2Proof.Machine.execVabs d a k t s
  | .vneg d a k t => Sys2Proof.Machine.execVneg d a k t s
  | .vand d a b k t => Sys2Proof.Machine.execVand d a b k t s
  | .vor d a b k t => Sys2Proof.Machine.execVor d a b k t s
  | .vxor d a b k t => Sys2Proof.Machine.execVxor d a b k t s
  | .vsll d a b k t => Sys2Proof.Machine.execVsll d a b k t s
  | .vsrl d a b k t => Sys2Proof.Machine.execVsrl d a b k t s
  | .vsra d a b k t => Sys2Proof.Machine.execVsra d a b k t s
  | .vcmpeq d a b k t => Sys2Proof.Machine.execVcmpeq d a b k t s
  | .vcmplt d a b k t => Sys2Proof.Machine.execVcmplt d a b k t s
  | .vcmple d a b k t => Sys2Proof.Machine.execVcmple d a b k t s
  | .vsel d a b k t => Sys2Proof.Machine.execVsel d a b k t s
  | .vredadd d a k t => Sys2Proof.Machine.execVredadd d a k t s
  | .vredmax d a k t => Sys2Proof.Machine.execVredmax d a k t s
  | .vredmin d a k t => Sys2Proof.Machine.execVredmin d a k t s
  | .vamax d a k t => Sys2Proof.Machine.execVamax d a k t s
  | .vcvt d a s1 k t => Sys2Proof.Machine.execVcvt d a s1 k t s
  | .vqnt d a b k t => Sys2Proof.Machine.execVqnt d a b k t s
  | .vdqnt d a b k t => Sys2Proof.Machine.execVdqnt d a b k t s
  | .vexp2 d a k t => Sys2Proof.Machine.execVexp2 d a k t s
  | .vlog2 d a k t => Sys2Proof.Machine.execVlog2 d a k t s
  | .vrcp d a k t => Sys2Proof.Machine.execVrcp d a k t s
  | .vrsq d a k t => Sys2Proof.Machine.execVrsq d a k t s
  | .vperm d a b k t => Sys2Proof.Machine.execVperm d a b k t s
  | .vshuf d a b k t => Sys2Proof.Machine.execVshuf d a b k t s
  | .vbcast d a k t => Sys2Proof.Machine.execVbcast d a k t s
  | .vext d a b t => Sys2Proof.Machine.execVext d a b t s
  | .vins d a b t => Sys2Proof.Machine.execVins d a b t s
  | .vld d a k t => Sys2Proof.Machine.execVld d a k t s
  | .vst d a k t => Sys2Proof.Machine.execVst d a k t s
  | .vlds d a b k t => Sys2Proof.Machine.execVlds d a b k t s
  | .vsts d a b k t => Sys2Proof.Machine.execVsts d a b k t s
  | .vgth d a b k t => Sys2Proof.Machine.execVgth d a b k t s
  | .vsct d a b k t => Sys2Proof.Machine.execVsct d a b k t s
  | .kand d a b => Sys2Proof.Machine.execKand d a b s
  | .kor d a b => Sys2Proof.Machine.execKor d a b s
  | .knot d a => Sys2Proof.Machine.execKnot d a s
  | .kmov d a => Sys2Proof.Machine.execKmov d a s
  | .kmovFromX d a => Sys2Proof.Machine.execKmovFromX d a s
  | .kmovToX d a => Sys2Proof.Machine.execKmovToX d a s
  | .macq d => Sys2Proof.Machine.execMacq d s
  | .mrel d => Sys2Proof.Machine.execMrel d s
  | .mld d s1 => Sys2Proof.Machine.execMld d s1 s
  | .mst d s1 => Sys2Proof.Machine.execMst d s1 s
  | .mzero d => Sys2Proof.Machine.execMzero d s
  | .mma d a b => Sys2Proof.Machine.execMma d a b s
  | .mmas d a b m => Sys2Proof.Machine.execMmas d a b m s
  | .madd d a b => Sys2Proof.Machine.execMadd d a b s
  | .mscl d a s1 => Sys2Proof.Machine.execMscl d a s1 s
  | .mcvt d a => Sys2Proof.Machine.execMcvt d a s
  | .mtrn d a => Sys2Proof.Machine.execMtrn d a s
  | .mgeo s1 l => Sys2Proof.Machine.execMgeo s1 l s
  | .cpstat a d => Sys2Proof.Machine.execCpstat a d s
  | .cpkill a => Sys2Proof.Machine.execCpkill a s
  | .mkfull a b => Sys2Proof.Machine.execMkfull a b s
  | .mkempty a b => Sys2Proof.Machine.execMkempty a b s
  | .festat a d => Sys2Proof.Machine.execFestat a d s
  | .waddr a b => Sys2Proof.Machine.execWaddr a b s
  | .loop l a b => Sys2Proof.Machine.execLoop l a b s
  | .mtc a c => Sys2Proof.Machine.execMtc a c s
  | .mfc d c => Sys2Proof.Machine.execMfc d c s
  | .cpgo d => Sys2Proof.Machine.execCpgo d s
  | .fence s1 k => Sys2Proof.Machine.execFence s1 k s
  | .ldacq d a s1 => Sys2Proof.Machine.execLdacq d a s1 s
  | .strel a b s1 => Sys2Proof.Machine.execStrel a b s1 s
  | .gtwait a => Sys2Proof.Machine.execGtwait a s
  | .amadd d a b w => Sys2Proof.Machine.execAmadd d a b w s
  | .amand d a b w => Sys2Proof.Machine.execAmand d a b w s
  | .amor d a b w => Sys2Proof.Machine.execAmor d a b w s
  | .amxor d a b w => Sys2Proof.Machine.execAmxor d a b w s
  | .ammin d a b w => Sys2Proof.Machine.execAmmin d a b w s
  | .ammax d a b w => Sys2Proof.Machine.execAmmax d a b w s
  | .amminn d a b w => Sys2Proof.Machine.execAmminn d a b w s
  | .ammaxn d a b w => Sys2Proof.Machine.execAmmaxn d a b w s
  | .amswp d a b w => Sys2Proof.Machine.execAmswp d a b w s
  | .amcas d a b w => Sys2Proof.Machine.execAmcas d a b w s
  | .amfadd d a b => Sys2Proof.Machine.execAmfadd d a b s
  | .amdadd d a b => Sys2Proof.Machine.execAmdadd d a b s
  | .lock d a b => Sys2Proof.Machine.execLock d a b s
  | .unlock a => Sys2Proof.Machine.execUnlock a s
  | .lktry d a => Sys2Proof.Machine.execLktry d a s
  | .lkq d a => Sys2Proof.Machine.execLkq d a s
  | .wait l s1 c m g => Sys2Proof.Machine.execWait l s1 c m g s
  | .send a b => Sys2Proof.Machine.execSend a b s
  | .sendn d a b => Sys2Proof.Machine.execSendn d a b s
  | .callat d a b => Sys2Proof.Machine.execCallat d a b s
  | .rwi a b => Sys2Proof.Machine.execRwi a b s
  | .arm d a b => Sys2Proof.Machine.execArm d a b s
  | .disarm a => Sys2Proof.Machine.execDisarm a s
  | .watch d a b => Sys2Proof.Machine.execWatch d a b s
  | .rewatch d a b => Sys2Proof.Machine.execRewatch d a b s
  | .apin d a b => Sys2Proof.Machine.execApin d a b s
  | .aunpin a => Sys2Proof.Machine.execAunpin a s
  | .hmsg a b => Sys2Proof.Machine.execHmsg a b s
  | .commit d a b => Sys2Proof.Machine.execCommit d a b s
  | .seal d => Sys2Proof.Machine.execSeal d s
  | .claimq d a => Sys2Proof.Machine.execClaimq d a s
  | .rpin d a b => Sys2Proof.Machine.execRpin d a b s
  | .runpin a => Sys2Proof.Machine.execRunpin a s
  | .wkq d a b => Sys2Proof.Machine.execWkq d a b s
  | .wkcan d a b => Sys2Proof.Machine.execWkcan d a b s
  | .done => Sys2Proof.Machine.execDone s
  | .trap c => Sys2Proof.Machine.execTrap c s
  | .eret => Sys2Proof.Machine.execEret s
  | .idle => Sys2Proof.Machine.execIdle s
  | .brk c => Sys2Proof.Machine.execBrk c s
  | .tlbinv a b => Sys2Proof.Machine.execTlbinv a b s
  | .ctxsv a => Sys2Proof.Machine.execCtxsv a s
  | .ctxld a => Sys2Proof.Machine.execCtxld a s
  | .fltack a => Sys2Proof.Machine.execFltack a s
  | .yield => Sys2Proof.Machine.execYield s
  | .fmt a b r s1 => Sys2Proof.Machine.execFmt a b r s1 s
  | .receiverFault xk r => Sys2Proof.Machine.execReceiverFault xk r s
  | .upcall xk => Sys2Proof.Machine.execUpcall xk s
  | .notice ck token err => Sys2Proof.Machine.execNotice ck token err s
  | .fback die value => Sys2Proof.Machine.execFback die value s
  | .faultRetry q => Sys2Proof.Machine.execFaultRetry q s
  | .halt die core ctx => Sys2Proof.Machine.execHalt die core ctx s
  | .haltAll die core => Sys2Proof.Machine.execHaltAll die core s
  | .resume die core ctx => Sys2Proof.Machine.execResume die core ctx s
  | .tlbcmd vi value => Sys2Proof.Machine.execTlbcmd vi value s
  | .inval die vi all va by_ => Sys2Proof.Machine.execInval die vi all va by_ s
  | .cmapswp die value => Sys2Proof.Machine.execCmapswp die value s
  | .swapTransferDone die => Sys2Proof.Machine.execSwapTransferDone die s
  | .srsplit die value => Sys2Proof.Machine.execSrsplit die value s
  | .splitEffect die => Sys2Proof.Machine.execSplitEffect die s
  | .tailw vi slot value => Sys2Proof.Machine.execTailw vi slot value s
  | .cheadw vi slot value => Sys2Proof.Machine.execCheadw vi slot value s
  | .qtail queue tail => Sys2Proof.Machine.execQtail queue tail s
  | .qchead queue head => Sys2Proof.Machine.execQchead queue head s
  | .qctl queue value => Sys2Proof.Machine.execQctl queue value s
  | .victl vi value => Sys2Proof.Machine.execVictl vi value s
  | .keyInstall vi => Sys2Proof.Machine.execKeyInstall vi s
  | .teardownComplete vi => Sys2Proof.Machine.execTeardownComplete vi s
  | .qLaunch queue => Sys2Proof.Machine.execQLaunch queue s
  | .qGraph queue => Sys2Proof.Machine.execQGraph queue s
  | .qCancel queue => Sys2Proof.Machine.execQCancel queue s
  | .hmsgEntry queue => Sys2Proof.Machine.execHmsgEntry queue s
  | .qfence queue => Sys2Proof.Machine.execQfence queue s
  | .entryUnreadable queue => Sys2Proof.Machine.execEntryUnreadable queue s
  | .completionRecord queue => Sys2Proof.Machine.execCompletionRecord queue s
  | .cwrite queue => Sys2Proof.Machine.execCwrite queue s
  | .hmsgDelivery m => Sys2Proof.Machine.execHmsgDelivery m s
  | .hmsgRetry m => Sys2Proof.Machine.execHmsgRetry m s
  | .handlerMessage m => Sys2Proof.Machine.execHandlerMessage m s
  | .placementDecision die => Sys2Proof.Machine.execPlacementDecision die s
  | .blockSteal die => Sys2Proof.Machine.execBlockSteal die s
  | .dispatchReport die frm untouched queued => Sys2Proof.Machine.execDispatchReport die frm untouched queued s
  | .descriptorRead u => Sys2Proof.Machine.execDescriptorRead u s
  | .pinRequest q => Sys2Proof.Machine.execPinRequest q s
  | .pinReply q home ans => Sys2Proof.Machine.execPinReply q home ans s
  | .pinRetry q => Sys2Proof.Machine.execPinRetry q s
  | .gangDrain vi lid => Sys2Proof.Machine.execGangDrain vi lid s
  | .gangReserve vi lid => Sys2Proof.Machine.execGangReserve vi lid s
  | .hedgeSample => Sys2Proof.Machine.execHedgeSample s
  | .budgetCheck b => Sys2Proof.Machine.execBudgetCheck b s
  | .backupRequest b => Sys2Proof.Machine.execBackupRequest b s
  | .hedgeRequestTimeout b => Sys2Proof.Machine.execHedgeRequestTimeout b s
  | .budgetRefill => Sys2Proof.Machine.execBudgetRefill s
  | .translate q => Sys2Proof.Machine.execTranslate q s
  | .loadRequest q => Sys2Proof.Machine.execLoadRequest q s
  | .loadReply q data fill expiry => Sys2Proof.Machine.execLoadReply q data fill expiry s
  | .storeRequest q => Sys2Proof.Machine.execStoreRequest q s
  | .storeAck q vt => Sys2Proof.Machine.execStoreAck q vt s
  | .leaseExpiry ck vi va => Sys2Proof.Machine.execLeaseExpiry ck vi va s
  | .writeBack w => Sys2Proof.Machine.execWriteBack w s
  | .flush ck vi page size die => Sys2Proof.Machine.execFlush ck vi page size die s
  | .flushAck die vi page => Sys2Proof.Machine.execFlushAck die vi page s
  | .handleUpdate q => Sys2Proof.Machine.execHandleUpdate q s
  | .copyBegin ck => Sys2Proof.Machine.execCopyBegin ck s
  | .copyConditionalWrite ck id => Sys2Proof.Machine.execCopyConditionalWrite ck id s
  | .copyComplete ck id => Sys2Proof.Machine.execCopyComplete ck id s
  | .waddrRetry q => Sys2Proof.Machine.execWaddrRetry q s
  | .tileOpComplete xk op => Sys2Proof.Machine.execTileOpComplete xk op s
  | .segmentComplete xk => Sys2Proof.Machine.execSegmentComplete xk s
  | .scopeMiss q => Sys2Proof.Machine.execScopeMiss q s
  | .atomicRequest q => Sys2Proof.Machine.execAtomicRequest q s
  | .atomicReply q old vt flags => Sys2Proof.Machine.execAtomicReply q old vt flags s
  | .atomicResend q => Sys2Proof.Machine.execAtomicResend q s
  | .lockRequest q => Sys2Proof.Machine.execLockRequest q s
  | .lkqRequest q => Sys2Proof.Machine.execLkqRequest q s
  | .lockTableRetry q => Sys2Proof.Machine.execLockTableRetry q s
  | .enqueued q => Sys2Proof.Machine.execEnqueued q s
  | .lkLink tgt k w => Sys2Proof.Machine.execLkLink tgt k w s
  | .grant tgt k status data => Sys2Proof.Machine.execGrant tgt k status data s
  | .handoff k frm new => Sys2Proof.Machine.execHandoff k frm new s
  | .lkRelease k frm status => Sys2Proof.Machine.execLkRelease k frm status s
  | .waitlink tgt k => Sys2Proof.Machine.execWaitlink tgt k s
  | .lkBreak tgt k => Sys2Proof.Machine.execLkBreak tgt k s
  | .breakAck k frm next released => Sys2Proof.Machine.execBreakAck k frm next released s
  | .holdDeadline k stamp => Sys2Proof.Machine.execHoldDeadline k stamp s
  | .lockDeadline xk eid => Sys2Proof.Machine.execLockDeadline xk eid s
  | .skipTimer xk eid => Sys2Proof.Machine.execSkipTimer xk eid s
  | .probe q hops h first => Sys2Proof.Machine.execProbe q hops h first s
  | .probeResult q dead hops first => Sys2Proof.Machine.execProbeResult q dead hops first s
  | .deadlockReport vi line xk hops first => Sys2Proof.Machine.execDeadlockReport vi line xk hops first s
  | .messageArrival m => Sys2Proof.Machine.execMessageArrival m s
  | .reoffer m => Sys2Proof.Machine.execReoffer m s
  | .withdraw m => Sys2Proof.Machine.execWithdraw m s
  | .messageAnswer m ans => Sys2Proof.Machine.execMessageAnswer m ans s
  | .handlerRunStart ck => Sys2Proof.Machine.execHandlerRunStart ck s
  | .hbudget xk => Sys2Proof.Machine.execHbudget xk s
  | .taskArrive m => Sys2Proof.Machine.execTaskArrive m s
  | .taskStart ck => Sys2Proof.Machine.execTaskStart ck s
  | .callatReply caller cell args status => Sys2Proof.Machine.execCallatReply caller cell args status s
  | .rwiArrival q => Sys2Proof.Machine.execRwiArrival q s
  | .watchRequest q => Sys2Proof.Machine.execWatchRequest q s
  | .watchRetry q => Sys2Proof.Machine.execWatchRetry q s
  | .freeze die => Sys2Proof.Machine.execFreeze die s
  | .thaw die => Sys2Proof.Machine.execThaw die s
  | .evict die => Sys2Proof.Machine.execEvict die s
  | .restore die => Sys2Proof.Machine.execRestore die s
  | .actorResume die => Sys2Proof.Machine.execActorResume die s
  | .spillReplay ck mb => Sys2Proof.Machine.execSpillReplay ck mb s
  | .idleTimeout xk stamp => Sys2Proof.Machine.execIdleTimeout xk stamp s
  | .yieldExpiry xk stamp => Sys2Proof.Machine.execYieldExpiry xk stamp s
  | .gtwaitExpiry xk stamp => Sys2Proof.Machine.execGtwaitExpiry xk stamp s
  | .claimRequest q => Sys2Proof.Machine.execClaimRequest q s
  | .claimAnswer q ans => Sys2Proof.Machine.execClaimAnswer q ans s
  | .claimRetry q => Sys2Proof.Machine.execClaimRetry q s
  | .winNotice u => Sys2Proof.Machine.execWinNotice u s
  | .commitBusyRetry q => Sys2Proof.Machine.execCommitBusyRetry q s
  | .streamLine q refused => Sys2Proof.Machine.execStreamLine q refused s
  | .publish q => Sys2Proof.Machine.execPublish q s
  | .groupClaim q => Sys2Proof.Machine.execGroupClaim q s
  | .claimRelease q => Sys2Proof.Machine.execClaimRelease q s
  | .cancelCopy xk reason u => Sys2Proof.Machine.execCancelCopy xk reason u s
  | .rowpwr row value => Sys2Proof.Machine.execRowpwr row value s
  | .corepwr pcore value => Sys2Proof.Machine.execCorepwr pcore value s
  | .voltageStep row => Sys2Proof.Machine.execVoltageStep row s
  | .clockHop pcore => Sys2Proof.Machine.execClockHop pcore s
  | .droop row => Sys2Proof.Machine.execDroop row s
  | .rampStep => Sys2Proof.Machine.execRampStep s
  | .controlInterval => Sys2Proof.Machine.execControlInterval s
  | .fabpwrStagger value => Sys2Proof.Machine.execFabpwrStagger value s
  | .fabpwrSlow value => Sys2Proof.Machine.execFabpwrSlow value s
  | .stagger nslot slotw => Sys2Proof.Machine.execStagger nslot slotw s
  | .slow floor intervals => Sys2Proof.Machine.execSlow floor intervals s
  | .supplyEmergency => Sys2Proof.Machine.execSupplyEmergency s
  | .emerg value => Sys2Proof.Machine.execEmerg value s
  | .tantalumBoot manifest flash => Sys2Proof.Machine.execTantalumBoot manifest flash s
  | .portTraining port lanes => Sys2Proof.Machine.execPortTraining port lanes s
  | .nak port => Sys2Proof.Machine.execNak port s
  | .linkAck port upto => Sys2Proof.Machine.execLinkAck port upto s
  | .permitReturn port cls vi n shared => Sys2Proof.Machine.execPermitReturn port cls vi n shared s
  | .portDown port => Sys2Proof.Machine.execPortDown port s
  | .keyRollover port => Sys2Proof.Machine.execKeyRollover port s
  | .keydone port => Sys2Proof.Machine.execKeydone port s
  | .keyack port => Sys2Proof.Machine.execKeyack port s
  | .getVersion requester => Sys2Proof.Machine.execGetVersion requester s
  | .getCapabilities requester => Sys2Proof.Machine.execGetCapabilities requester s
  | .negotiateAlgorithms requester => Sys2Proof.Machine.execNegotiateAlgorithms requester s
  | .getDigests requester => Sys2Proof.Machine.execGetDigests requester s
  | .getCertificate requester => Sys2Proof.Machine.execGetCertificate requester s
  | .challenge requester => Sys2Proof.Machine.execChallenge requester s
  | .getMeasurements requester index => Sys2Proof.Machine.execGetMeasurements requester index s
  | .keyExchange requester => Sys2Proof.Machine.execKeyExchange requester s
  | .finish requester => Sys2Proof.Machine.execFinish requester s
  | .endSession requester => Sys2Proof.Machine.execEndSession requester s
  | .fatalError cls dies => Sys2Proof.Machine.execFatalError cls dies s
  | .registerWrite offset value => Sys2Proof.Machine.execRegisterWrite offset value s
  | .ill w => Sys2Proof.Machine.execIll w s
  | .fetchFault code tval => Sys2Proof.Machine.execFetchFault code tval s
  | .badop queue => Sys2Proof.Machine.execBadop queue s
  | .mcheck xk => Sys2Proof.Machine.execMcheck xk s
  | .voltageRecovered row => Sys2Proof.Machine.execVoltageRecovered row s
  | .emergencyCleared => Sys2Proof.Machine.execEmergencyCleared s

end Sys2Proof.Machine
end

