-- ==== Sys2Proof/Machine/Events.lean ====
section
/-! DEFINITION. The step that an event of the state makes: the meaning of its row of the opcode table. -/
namespace Sys2Proof.Machine
open Sys2Proof

/-- An event happens: the meaning that `exec` gives the constructor of `Instr` of the same name. -/
def execEv (ev : Ev) (s : State) : Host.Outcome State Fault Refusal :=
  match ev with
  | .receiverFault xk r => execReceiverFault xk r s
  | .upcall xk => execUpcall xk s
  | .notice ck token err => execNotice ck token err s
  | .fback die value => execFback die value s
  | .faultRetry q => execFaultRetry q s
  | .halt die core ctx => execHalt die core ctx s
  | .haltAll die core => execHaltAll die core s
  | .resume die core ctx => execResume die core ctx s
  | .tlbcmd vi value => execTlbcmd vi value s
  | .inval die vi all va by_ => execInval die vi all va by_ s
  | .cmapswp die value => execCmapswp die value s
  | .swapTransferDone die => execSwapTransferDone die s
  | .srsplit die value => execSrsplit die value s
  | .splitEffect die => execSplitEffect die s
  | .tailw vi slot value => execTailw vi slot value s
  | .cheadw vi slot value => execCheadw vi slot value s
  | .qtail queue tail => execQtail queue tail s
  | .qchead queue head => execQchead queue head s
  | .qctl queue value => execQctl queue value s
  | .victl vi value => execVictl vi value s
  | .keyInstall vi => execKeyInstall vi s
  | .teardownComplete vi => execTeardownComplete vi s
  | .qLaunch queue => execQLaunch queue s
  | .qGraph queue => execQGraph queue s
  | .qCancel queue => execQCancel queue s
  | .hmsgEntry queue => execHmsgEntry queue s
  | .qfence queue => execQfence queue s
  | .entryUnreadable queue => execEntryUnreadable queue s
  | .completionRecord queue => execCompletionRecord queue s
  | .cwrite queue => execCwrite queue s
  | .hmsgDelivery m => execHmsgDelivery m s
  | .hmsgRetry m => execHmsgRetry m s
  | .handlerMessage m => execHandlerMessage m s
  | .placementDecision die => execPlacementDecision die s
  | .blockSteal die => execBlockSteal die s
  | .dispatchReport die frm untouched queued => execDispatchReport die frm untouched queued s
  | .descriptorRead u => execDescriptorRead u s
  | .pinRequest q => execPinRequest q s
  | .pinReply q home ans => execPinReply q home ans s
  | .pinRetry q => execPinRetry q s
  | .gangDrain vi lid => execGangDrain vi lid s
  | .gangReserve vi lid => execGangReserve vi lid s
  | .hedgeSample => execHedgeSample s
  | .budgetCheck b => execBudgetCheck b s
  | .backupRequest b => execBackupRequest b s
  | .hedgeRequestTimeout b => execHedgeRequestTimeout b s
  | .budgetRefill => execBudgetRefill s
  | .translate q => execTranslate q s
  | .loadRequest q => execLoadRequest q s
  | .loadReply q data fill expiry => execLoadReply q data fill expiry s
  | .storeRequest q => execStoreRequest q s
  | .storeAck q vt => execStoreAck q vt s
  | .leaseExpiry ck vi va => execLeaseExpiry ck vi va s
  | .writeBack w => execWriteBack w s
  | .flush ck vi page size die => execFlush ck vi page size die s
  | .flushAck die vi page => execFlushAck die vi page s
  | .handleUpdate q => execHandleUpdate q s
  | .copyBegin ck => execCopyBegin ck s
  | .copyConditionalWrite ck id => execCopyConditionalWrite ck id s
  | .copyComplete ck id => execCopyComplete ck id s
  | .waddrRetry q => execWaddrRetry q s
  | .tileOpComplete xk op => execTileOpComplete xk op s
  | .segmentComplete xk => execSegmentComplete xk s
  | .scopeMiss q => execScopeMiss q s
  | .atomicRequest q => execAtomicRequest q s
  | .atomicReply q old vt flags => execAtomicReply q old vt flags s
  | .atomicResend q => execAtomicResend q s
  | .lockRequest q => execLockRequest q s
  | .lkqRequest q => execLkqRequest q s
  | .lockTableRetry q => execLockTableRetry q s
  | .enqueued q => execEnqueued q s
  | .lkLink tgt k w => execLkLink tgt k w s
  | .grant tgt k status data => execGrant tgt k status data s
  | .handoff k frm new => execHandoff k frm new s
  | .lkRelease k frm status => execLkRelease k frm status s
  | .waitlink tgt k => execWaitlink tgt k s
  | .lkBreak tgt k => execLkBreak tgt k s
  | .breakAck k frm next released => execBreakAck k frm next released s
  | .holdDeadline k stamp => execHoldDeadline k stamp s
  | .lockDeadline xk eid => execLockDeadline xk eid s
  | .skipTimer xk eid => execSkipTimer xk eid s
  | .probe q hops h first => execProbe q hops h first s
  | .probeResult q dead hops first => execProbeResult q dead hops first s
  | .deadlockReport vi line xk hops first => execDeadlockReport vi line xk hops first s
  | .messageArrival m => execMessageArrival m s
  | .reoffer m => execReoffer m s
  | .withdraw m => execWithdraw m s
  | .messageAnswer m ans => execMessageAnswer m ans s
  | .handlerRunStart ck => execHandlerRunStart ck s
  | .hbudget xk => execHbudget xk s
  | .taskArrive m => execTaskArrive m s
  | .taskStart ck => execTaskStart ck s
  | .callatReply caller cell args status => execCallatReply caller cell args status s
  | .rwiArrival q => execRwiArrival q s
  | .watchRequest q => execWatchRequest q s
  | .watchRetry q => execWatchRetry q s
  | .freeze die => execFreeze die s
  | .thaw die => execThaw die s
  | .evict die => execEvict die s
  | .restore die => execRestore die s
  | .actorResume die => execActorResume die s
  | .spillReplay ck mb => execSpillReplay ck mb s
  | .idleTimeout xk stamp => execIdleTimeout xk stamp s
  | .yieldExpiry xk stamp => execYieldExpiry xk stamp s
  | .gtwaitExpiry xk stamp => execGtwaitExpiry xk stamp s
  | .claimRequest q => execClaimRequest q s
  | .claimAnswer q ans => execClaimAnswer q ans s
  | .claimRetry q => execClaimRetry q s
  | .winNotice u => execWinNotice u s
  | .commitBusyRetry q => execCommitBusyRetry q s
  | .streamLine q refused => execStreamLine q refused s
  | .publish q => execPublish q s
  | .groupClaim q => execGroupClaim q s
  | .claimRelease q => execClaimRelease q s
  | .cancelCopy xk reason u => execCancelCopy xk reason u s
  | .rowpwr row value => execRowpwr row value s
  | .corepwr pcore value => execCorepwr pcore value s
  | .voltageStep row => execVoltageStep row s
  | .clockHop pcore => execClockHop pcore s
  | .droop row => execDroop row s
  | .rampStep => execRampStep s
  | .controlInterval => execControlInterval s
  | .fabpwrStagger value => execFabpwrStagger value s
  | .fabpwrSlow value => execFabpwrSlow value s
  | .stagger nslot slotw => execStagger nslot slotw s
  | .slow floor intervals => execSlow floor intervals s
  | .supplyEmergency => execSupplyEmergency s
  | .emerg value => execEmerg value s
  | .tantalumBoot manifest flash => execTantalumBoot manifest flash s
  | .portTraining port lanes => execPortTraining port lanes s
  | .nak port => execNak port s
  | .linkAck port upto => execLinkAck port upto s
  | .permitReturn port cls vi n shared => execPermitReturn port cls vi n shared s
  | .portDown port => execPortDown port s
  | .keyRollover port => execKeyRollover port s
  | .keydone port => execKeydone port s
  | .keyack port => execKeyack port s
  | .getVersion requester => execGetVersion requester s
  | .getCapabilities requester => execGetCapabilities requester s
  | .negotiateAlgorithms requester => execNegotiateAlgorithms requester s
  | .getDigests requester => execGetDigests requester s
  | .getCertificate requester => execGetCertificate requester s
  | .challenge requester => execChallenge requester s
  | .getMeasurements requester index => execGetMeasurements requester index s
  | .keyExchange requester => execKeyExchange requester s
  | .finish requester => execFinish requester s
  | .endSession requester => execEndSession requester s
  | .spdmResponse _ _ => .next s
  | .fatalError cls dies => execFatalError cls dies s
  | .registerWrite offset value => execRegisterWrite offset value s
  | .ill w => execIll w s
  | .fetchFault code tval => execFetchFault code tval s
  | .badop queue => execBadop queue s
  | .mcheck xk => execMcheck xk s
  | .voltageRecovered row => execVoltageRecovered row s
  | .emergencyCleared => execEmergencyCleared s

end Sys2Proof.Machine
end

