-- ==== Sys2Proof/Machine/Sched.lean ====
section
/-! DEFINITION. What can happen next: fetch (R104 to R106), the issue choice of a core (R80), messages that can be delivered
(R65, R83, R288, R310), and the engines' acts that the state enables. Where several can, the choice is free (log 5). -/
namespace Sys2Proof.Machine
open Sys2Proof

/-! ### Fetch (R104 to R106) -/

/-- The outcome of a fetch: a word, a trap code with TVAL, or the wait for a page to be reclassified (R173). -/
inductive Fetched where
  | word (w : Word) (c : Chip)
  | fault (code : Nat) (tval : W64) (c : Chip)
  | hold (c : Chip)
  deriving DecidableEq, Repr

/-- The words of a line that fetch reads ahead and may keep: those that it has not kept yet (R106). -/
def Chip.readAhead (c : Chip) (xk : Nat) (pc : W64) (pa : Nat) (word : Nat → Nat → Word) : Chip :=
  c.modCtx xk fun x => { x with kept := (List.range 32).foldl (fun t i =>
    let a := pc.toNat / 128 * 128 + 4 * i
    if t.any (·.1 == a) then t else t.put a (pa / 128 * 128 + 4 * i, word a (pa / 128 * 128 + 4 * i))) x.kept }
/-- The word at an address of a page that fetch may execute: the core's own copy of a private or locked line, or its home's. -/
def Chip.codeWord (e : Env) (c : Chip) (ck vi : Nat) (pc : W64) (home pa : Nat) : Word :=
  let mine (l : L1Line) : Bool := l.vi == vi && l.va == lineOf pc && (match l.kind with | .leased _ => false | _ => true)
  let d := match (c.core ck).l1.find? mine with
    | some l => (l.data.drop (pc.toNat % 128)).take 4
    | none => if home = bridgeNode then rdN e c pa 4 else c.homeRead e vi pa 4
  BitVec.ofNat 32 (leNat d)
/-- The next instruction word of a context: PERM and MISPC of the PC, the translation with fetch permission, and a word kept from
before in place of one that has changed, until an acquire (R106, log 7). A context in STALL goes on with the word it has (R79). -/
def fetch (e : Env) (c : Chip) (xk : Nat) : Fetched :=
  let x := c.ctx xk
  let pc := x.pc
  match (if x.st = .stall then x.word else none) with
  | some w => .word w c
  | none =>
    if bits pc.toNat 52 12 ≠ 0 ∨ bits pc.toNat 50 2 ≠ 2 then .fault 0x09 pc c
    else if pc.toNat % 4 ≠ 0 then .fault 0x03 pc c
    else match xlate e c x.vi pc 2 (some (coreOf xk)) (some (coreOf xk)) false with
      | .fault code _ => .fault code pc (c.modCtx xk fun x => { x with word := none })
      | .hold o page size leaf => .hold ((c.askFlush (hash21 pc.toNat) x.vi o page size leaf).modCtx xk fun x => { x with word := none })
      | .ok c home pa _ _ _ =>
        if home = bridgeNode ∧ c.linkGone (extHost pa) then .fault 0x14 pc (c.modCtx xk fun x => { x with word := none })
        else if c.badAt pa 4 then .fault 0x10 pc (c.modCtx xk fun x => { x with word := none })
        else
          let c := c.drainWb fun w => w.pa / 128 == pa / 128
          let w := c.codeWord e (coreOf xk) x.vi pc home pa
          let old := (x.kept.get (pa, w) pc.toNat).2
          let keepIt : Bool := if old = w then false else Config.keepOld c.frees
          let w := if keepIt then old else w
          let c := c.modCtx xk fun x => { x with kept := x.kept.put pc.toNat (pa, w), word := some w }
          .word w { c.readAhead xk pc pa (fun a p => c.codeWord e (coreOf xk) x.vi (w64 a) home p) with frees := c.frees + 1 }

/-! ### The issue choice (R79, R80, R153) -/

/-- The condition that a context in STALL waits for is met (R79). -/
def Chip.met (e : Env) (c : Chip) (xk : Nat) (x : Ctx) : Bool :=
  let k := c.core (coreOf xk)
  match x.wait with
  | .free => true
  | .regs xs vs ms wm => !x.blocked { x := xs, v := vs, rm := ms, wm := wm }
  | .ctrs l s p m g => x.within .ld l && x.within .st s && x.within .cp p && x.within .mx m && x.within .msg g
  | .full off n => k.fullOver off n
  | .time t => decide (t ≤ e.now)
  | .answer => x.pend.ans.isSome || x.pend.kind == .none
  | .copyRoom => decide ((c.liveCopies (coreOf xk)).length < 32)
  | .msgRoom name => c.muRoom (coreOf xk) name
  | .amoRoom home => !c.amoFull (coreOf xk) home
  | .ghosts n => decide (k.ghostsUsed + n ≤ 16)
  | .idle t => x.idleWake || decide (t ≤ e.now)
  | .samePlace a n => !x.placeBusy a n
  | .ldacq => !x.acquiring
  | .notices off n => decide (n ≤ bits (leNat (rdN e c (sram (coreOf xk) (off + 0x38)) 8)) 0 16)
  | .save t => c.saveReady t
/-- HEDGE_SAMPLE has been performed at this GTIME: a copy that would end in this cycle would not have been sampled (R94). -/
def Chip.sampledNow (c : Chip) (now : Nat) : Bool := decide (0 < now) && c.nextSample == now + 4096
/-- The context may issue: READY, or in STALL with its condition met, and nothing else is due at its boundary (R79, R375). -/
def Chip.canIssue (e : Env) (c : Chip) (xk : Nat) : Bool :=
  let x := c.ctx xk
  let ck := coreOf xk
  (x.st == .ready || (x.st == .stall && c.met e xk x)) && x.mop.isNone && x.yield.isNone && (c.endReason xk).isNone && (!x.upcallDue || x.seqValid) &&
    !x.replaying && x.toPost.isEmpty && x.repair.isNone &&
    !(x.hasRefused && !x.seqValid && x.pend.kind == .none) && !x.hbudgetDue e.now && !c.holdsMsg xk && !c.frozen ck && !c.isOff ck && !c.hopping ck &&
    !(x.kind == .unit && x.unit.isSome && c.sampledNow e.now)
/-- The context that a core issues from (R80). -/
def Chip.nextIssue (e : Env) (c : Chip) (ck : Nat) : Option Nat :=
  let k := c.core ck
  let can (n : Nat) : Bool := c.canIssue e (ck * 8 + n) && decide (k.nextCycle ≤ e.now)
  let gen := ((List.range 6).map fun i => (k.lastGen + 1 + i) % 6).find? can
  (if 1024 ≤ k.hrun ∧ gen.isSome then gen else if can 6 then some 6 else if can 7 then some 7 else gen).map (ck * 8 + ·)
/-- The context issues: HandlerRun and LastGeneral, the cycle that the core spends, and the other contexts of the core may be chosen again (R80, R153). -/
def Chip.startIssue (now : Nat) (c : Chip) (xk : Nat) : Chip :=
  let ck := coreOf xk
  let next := now + c.cycleTicks (c.phys ck)
  let c := c.modCore ck fun k => { k with nextCycle := next }
  let c := c.modCore ck fun k => if 6 ≤ ctxNo xk then { k with hrun := k.hrun + 1 } else { k with hrun := 0, lastGen := ctxNo xk }
  let wake (p : Nat × Ctx) : Nat × Ctx := if coreOf p.1 = ck ∧ p.1 ≠ xk ∧ p.2.yield.isSome then (p.1, { p.2 with yield := none }) else p
  { c with cur := xk, turn := none, ctxs := c.ctxs.map wake }

/-! ### Messages that can be delivered (R65, R83, R288, R310) -/

/-- The classes that keep an order between two endpoints (R65). -/
def clsOrdered (k : Cls) : Bool := match k with | .rsp | .ctl | .mgt => false | _ => true
/-- The requests that are on their way to a translation home, or held there. -/
def Chip.untranslated (c : Chip) : List Req :=
  (c.net.filterMap fun f => match f.ev with | .translate q | .faultRetry q => some q | _ => none) ++ c.dies.flatMap fun d => d.2.reclass.flatMap (·.reqs)
/-- An earlier access of the same context to the same home has not been translated yet (R288). -/
def Chip.behindOwn (e : Env) (c : Chip) (q : Req) : Bool :=
  !q.host && !(Act.engine q.act) && c.untranslated.any fun p => !p.host && !Act.engine p.act && p.src == q.src && decide (p.part < q.part) && c.homeOf e p == c.homeOf e q
/-- An earlier access of the same context, answered RETRY, waits for the same translation home (R383). -/
def Chip.behindRetry (c : Chip) (q : Req) : Bool :=
  !q.host && !(Act.engine q.act) && c.net.any fun f => match f.ev with
    | .faultRetry p => !p.host && !Act.engine p.act && p.src == q.src && decide (p.part < q.part) && transNode p.va == transNode q.va
    | _ => false
/-- A value for a store that missed waits at its core for the refills of the earlier parts of the same instruction's access to that line:
they are written in order (R259). -/
def Chip.refillWaits (c : Chip) (q : Req) : Bool :=
  q.act == .store && q.refill && !q.host &&
    (c.ctx q.src).ops.any fun o => o.id == q.op && o.parts.any (fun p => p.id == q.part) && o.parts.any fun p => decide (p.id < q.part) && lineOf p.q.va == lineOf q.va
/-- Loads that an empty line held are released at a core, to be performed in this cycle (R210, R211). -/
def Chip.releasedAt (now : Nat) (c : Chip) (node : Nat) : Bool :=
  c.net.any fun f => f.dst == node && decide (2 ^ 22 ≤ f.src) && decide (f.src < 2 ^ 23) && decide (f.at_ ≤ now)
/-- The clock of a core stands still, or its power switch is open: work starts on none of its contexts (R405, R406). -/
def Chip.standing (c : Chip) (ck : Nat) : Bool := c.hopping ck || c.isOff ck
/-- An LDACQ's value waits at its core for the context's earlier loads and atomics: the acquire completes after them (R294, R309). -/
def Chip.acquireWaits (c : Chip) (q : Req) : Bool :=
  match q.act with
  | .ldacq _ => !q.host && (c.ctx q.src).ops.any fun o => o.ctr == .ld && decide (o.id < q.op)
  | _ => false
/-- The holder of a lock may issue in this cycle: an UNLOCK that completes in it is performed before a BREAK (R330). -/
def Chip.mayUnlock (e : Env) (c : Chip) (w : Waiter) : Bool :=
  let xk := c.holderOf w
  (c.ctx xk).held.any (·.eid == w.eid) && c.canIssue e xk && decide ((c.core (coreOf xk)).nextCycle ≤ e.now)
/-- An earlier atomic of the same context waits at the scratchpad that the request goes to, or is held at its core for it: the
request is performed after it (R68, R288, R304). -/
def Chip.behindHeld (c : Chip) (f : Flight) (q : Req) : Bool :=
  nodeIsCore f.dst && !q.host && !(decide (2 ^ 22 ≤ f.src) && decide (f.src < 2 ^ 23)) &&
    ((c.core (nodeCore f.dst)).hq.any (fun w => match w with | .atomic p => p.src == q.src && !p.host | _ => false) ||
     c.net.any fun g => g.dst == f.dst && decide (2 ^ 21 ≤ g.src) && (match g.ev with | .atomicRequest p => p.src == q.src && !p.host && p.part != q.part | _ => false))
/-- The step of a scratchpad's cycle in which a request is performed (R211). -/
def Act.step211 (a : Act) : Nat :=
  match a with
  | .cpwrite .. => 1
  | .store | .strel _ _ | .atomic .. | .rwi _ | .lock .. => 2
  | .mkfull _ => 3
  | .mkempty _ => 5
  | _ => 4
/-- The source key of a node of this device (R287). -/
def Chip.nodeKey (c : Chip) (node : Nat) : Nat := c.group % 16 * 2 ^ 16 + node % 2 ^ 16
/-- The source key of a request that comes from a node, or from outside (R287). -/
def Chip.reqKey (c : Chip) (q : Req) (node : Nat) : Nat :=
  if q.host then ((reqPeer q).getD (c.group % 16)) * 2 ^ 16 + (if (reqPeer q).isSome then coreNode (coreOf (q.src % 2 ^ 25)) else bridgeNode) else c.nodeKey node
/-- What a delivered message has a home do, where the order within one cycle is ruled: publishes have step 0, claims, pins and
releases step 1; a translation home takes a host's request after those of cores (R29, R211, R287, R384, R434, R438). -/
def Chip.didOf (c : Chip) (f : Flight) : Option Did :=
  let at_ (key step : Nat) (u : Option URef) : Option Did := some ⟨f.dst, step, key, u⟩
  let own : Nat := c.nodeKey f.src
  let key (q : Req) : Nat := c.reqKey q f.src
  let of (q : Req) : Option Did := at_ (key q) (if nodeIsCore f.dst then Act.step211 q.act else 4) none
  let amo : Option Did := at_ own (if nodeIsCore f.dst then 2 else 4) none
  match f.ev with
  | .publish q => at_ (key q) 0 none
  | .claimRequest q | .groupClaim q => at_ (key q) 1 (match q.act with | .claim _ u .. => some u | .gclaim u .. => some u | _ => none)
  | .claimRelease q | .pinRequest q => at_ (key q) 1 none
  | .loadRequest q | .storeRequest q | .atomicRequest q | .lockRequest q | .lkqRequest q | .watchRequest q | .rwiArrival q | .streamLine q false => of q
  | .writeBack _ | .handoff .. | .lkRelease .. | .breakAck .. => amo
  | .callatReply .. => at_ own 1 none
  | .translate q => at_ (key q + (if q.host && (reqPeer q).isNone then 2 ^ 20 else 0)) 4 none
  | _ => none
/-- The first is performed before the second when both reach the home in one cycle. -/
def Did.before (a b : Did) : Bool :=
  if a.home ≠ b.home then false
  else if nodeIsCore a.home then decide (a.step < b.step) || (a.step == b.step && decide (a.key < b.key))
  else if a.step = 0 then b.step == 1
  else if b.step = 0 then false
  else match a.unit, b.unit with
    | some u, some v => if u.vi = v.vi ∧ u.lid = v.lid ∧ u.idx = v.idx then decide (u.copy < v.copy) else decide (a.key < b.key)
    | _, _ => decide (a.key < b.key)
/-- No request that this one must precede in one cycle has been performed at this GTIME. -/
def Chip.inTurn (now : Nat) (c : Chip) (f : Flight) : Bool :=
  match c.didOf f with
  | some d => c.didAt ≠ now || !c.did.any fun g => d.before g
  | none => true
/-- What an act of an engine has scratchpads perform: the writes of a copy, its completion word among them, come first in their cycle; an
atomic that waited for a handler context is performed with the atomics (R211, R304). -/
def Chip.actDids (e : Env) (c : Chip) (ev : Ev) : List Did :=
  match ev with
  | .copyComplete ck op | .copyConditionalWrite ck op =>
    (match (c.core ck).copies.find? (·.op == op) with
     | some n =>
       let dst (a : W64) : List Nat := match c.spParse a 1 with | some p => if n.r.cols = 0 then [p.1] else castCores ck n.r.cols | none => []
       let word : List Nat := if n.moved ∧ space n.r.done = 1 then (match c.spParse n.r.done 8 with | some p => if p.1 = ck then [ck] else [] | none => []) else []
       ((if space n.r.dst = 1 then dst n.r.dst else []) ++ word).map fun k => ⟨coreNode k, 1, c.nodeKey (coreNode ck), none⟩
     | none => [])
  | .handlerRunStart ck =>
    if (c.repairDue e.now ck).isSome then []
    else (match (c.core ck).hq with | .atomic q :: _ => [⟨coreNode ck, 2, c.reqKey q (reqFrom q), none⟩] | _ => [])
  | _ => []
/-- None of these is due before something that its scratchpad has performed at this GTIME. -/
def Chip.allInTurn (now : Nat) (c : Chip) (l : List Did) : Bool := c.didAt ≠ now || !l.any fun d => c.did.any fun g => d.before g
/-- These are noted for the rest of the cycle. -/
def Chip.noteDids (now : Nat) (c : Chip) (l : List Did) : Chip :=
  if l.isEmpty then c else { c with didAt := now, did := l ++ (if c.didAt = now then c.did else []) }
/-- The core's own accesses of a cycle, whatever its instruction makes them, go with none of a later step before them and none of any
step after them: what arrives in that cycle waits for the next (R211, log 80). -/
def ownDid (ck : Nat) : Did := ⟨coreNode ck, 6, 0, none⟩
/-- The core's scratchpad has performed nothing at this GTIME that could be due after an access of its own, and no released load is still
to be performed there. -/
def Chip.ownTurn (now : Nat) (c : Chip) (ck : Nat) : Bool :=
  (c.didAt ≠ now || !c.did.any fun g => g.home == coreNode ck && decide (2 ≤ g.step)) && !c.releasedAt now (coreNode ck)
/-- The delivery is noted for the rest of the cycle. -/
def Chip.noteDid (now : Nat) (c : Chip) (f : Flight) : Chip :=
  match c.didOf f with
  | some d => { c with didAt := now, did := d :: (if c.didAt = now then c.did else []) }
  | none => c
/-- A message in flight can be delivered, `before` the ones sent before it. -/
def Chip.canDeliver (e : Env) (c : Chip) (before : List Flight) (f : Flight) : Bool :=
  decide (f.at_ ≤ e.now) && !(clsOrdered f.cls && before.any fun g => clsOrdered g.cls && g.src == f.src && g.dst == f.dst) &&
    !(nodeIsCore f.dst && (c.frozen (nodeCore f.dst) || c.hopping (nodeCore f.dst))) &&
    (match f.ev with
     | .translate q | .faultRetry q => !c.behindOwn e q && !c.behindRetry q
     | .loadReply q .. => !c.acquireWaits q && !c.refillWaits q
     | .pinReply q .. => (match q.act with | .pin u .. => ((c.vi u.vi).ctxOf u).all (fun xk => !c.standing (coreOf xk)) | _ => true)
     | .descriptorRead u => ((c.vi u.vi).ctxOf u).all fun xk => !c.standing (coreOf xk)
     | .lkBreak w _ => !c.mayUnlock e w
     | .skipTimer .. | .lockDeadline .. => decide (f.at_ < e.now)
     | .storeRequest q => !c.behindHeld f q && !(nodeIsCore f.dst && Act.step211 q.act == 5 && c.releasedAt e.now f.dst)
     | .loadRequest q | .lockRequest q | .lkqRequest q | .rwiArrival q | .handleUpdate q => !c.behindHeld f q
     | .atomicRequest q => q.stale || !c.behindHeld f q
     | _ => true) && c.inTurn e.now f
/-- The places in the list of flights that can be delivered. -/
def Chip.deliverable (e : Env) (c : Chip) : List Nat :=
  (List.range c.net.length).filter fun i => match c.net[i]? with
    | some f => c.canDeliver e (c.net.take i) f
    | none => false

/-! ### Acts that the state enables -/

/-- Acts due at a context's boundary or in its units. -/
def Chip.ctxActs (e : Env) (c : Chip) (xk : Nat) (x : Ctx) : List Ev :=
  if x.st == .idle || c.hopping (coreOf xk) then []
  else
    let zero : Bool := x.cnt .ld == 0 && x.cnt .st == 0 && x.cnt .cp == 0 && x.cnt .mx == 0
    let unit : List Ev := match (c.core (coreOf xk)).mxNow, x.ops.find? (fun o => match o.kind with | .tile .. | .mma | .mmaEnd .. => true | _ => false) with
      | some (n, due), some o => (match o.kind with | .tile .. => if n = ctxNo xk ∧ due ≠ 0 ∧ due ≤ e.now then [.tileOpComplete xk o.id] else [] | _ => [])
      | _, _ => []
    let seg : List Ev := if (x.mmaDue e.now).isSome || x.mop.any (fun o => o.left == 0 || (o.fresh && (x.stopReq || (c.endReason xk).isSome)))
      then [.segmentComplete xk] else []
    let late : List Ev := match x.waiting with
      | some we => if we.timedOut && (c.core (coreOf xk)).ghostsUsed < 16 then [.lockDeadline xk we.eid] else []
      | none => []
    unit ++ seg ++ late ++ ((c.streamNext xk).map fun q => .streamLine q false) ++
      (match c.endReason xk with
       | some r => if c.canEnd xk && x.mop.isNone && !(x.kind == .unit && c.sampledNow e.now) then [.cancelCopy xk r none] else []
       | none =>
         if !x.atBoundary then []
         else if x.upcallDue && !x.seqValid then (if zero || !c.wantsUpcall xk then [.upcall xk] else [])
         else if x.hasRefused && !x.seqValid && x.pend.kind == .none then [.receiverFault xk none]
         else if x.hbudgetDue e.now then [.hbudget xk] else [])
/-- Acts of a core's engines (R199 to R207, R348, R353, R354): none while its clock stands still; of a core that a swap holds only the end
of a repair, which a handler context makes that no stop ends (R83, R298). -/
def Chip.coreActs (e : Env) (c : Chip) (ck : Nat) (k : Core) : List Ev :=
  let copies : List Ev := (c.liveCopies ck).filterMap fun n =>
    if n.condDue then some (.copyConditionalWrite ck n.op) else if c.copyDue n e.now then some (.copyComplete ck n.op) else none
  let runs : List Ev := if (c.repairDue e.now ck).isSome || ((c.idleHandler ck).isSome && (!k.hq.isEmpty || k.nextMbox.isSome)) then [.handlerRunStart ck] else []
  let tasks : List Ev := if !k.tasks.isEmpty && k.hslots.isEmpty && (c.idleGeneral ck).isSome then [.taskStart ck] else []
  let spill : List Ev := (List.range 16).filterMap fun m => if (c.mbox ck m).canReplay then some (.spillReplay ck m) else none
  if c.hopping ck then [] else if c.frozen ck then (if (c.repairDue e.now ck).isSome then [.handlerRunStart ck] else []) else (if (c.copyReady ck).isSome then [.copyBegin ck] else []) ++ copies ++ runs ++ tasks ++ spill
/-- Commands of a die's registers, its swap and split (R83, R160, R352, R385). -/
def Chip.dieActs (c : Chip) (n : Nat) (d : Die) : List Ev :=
  let av : List Ev := if c.frozen (d.avCore n) || c.hopping (d.avCore n) then [] else match d.avpend with
    | 1 => [.freeze n] | 2 => [.evict n] | 3 => [.restore n] | 4 => [.actorResume n] | 5 => [.thaw n] | _ => []
  let core := bits d.ctxctl.toNat 0 10
  let ctx := bits d.ctxctl.toNat 21 3
  let ctl : List Ev := match d.ctxPend with
    | 1 => if !d.ctxWait || (c.ctx ((n * 768 + core) * 8 + ctx)).stopped then [.halt n core ctx] else []
    | 2 => if c.hopping (n * 768 + core) then [] else [.resume n core ctx]
    | 3 => if !d.ctxWait || (c.busyCtxs (n * 768 + core)).all (fun xk => (c.ctx xk).stopped) then [.haltAll n core] else []
    | _ => []
  av ++ ctl ++ (if c.swapReady n || !(c.swapLate n).isEmpty then [.swapTransferDone n] else []) ++ (if c.splitReady n then [.splitEffect n] else [])
/-- The next act of a queue: its entry, by OPC, or a record that it owes (R43, R52 to R57, R461). -/
def Chip.queueActs (e : Env) (c : Chip) (q : Nat) (k : Queue) : List Ev :=
  let entry : List Ev :=
    if c.queueReady q then (match c.entryAt e q with
      | none => [.entryUnreadable q]
      | some (_, d) => match eOpc d with
        | 1 => [.qLaunch q] | 2 => [.qGraph q] | 3 => [.qCancel q] | 4 => [.hmsgEntry q] | 5 => [.qfence q] | _ => [.badop q])
    else if k.fence.isSome && k.open_.isEmpty then [.qfence q] else []
  let rec_ : List Ev := match c.writeRecord e q with
    | some (_, some _) => [.completionRecord q]
    | some (_, none) => [.cwrite q]
    | none => []
  rec_ ++ entry
/-- Placement, reports, steals and gangs: only while some launch is known (R84 to R92). -/
def Chip.dispatchActs (e : Env) (c : Chip) : List Ev :=
  if c.launches.isEmpty && c.dies.all (fun d => d.2.backups.isEmpty && d.2.reports.isEmpty) then []
  else
    let dies := List.range 8
    (dies.filter fun d => (c.placement e d).isSome).map (.placementDecision ·) ++
    (dies.flatMap fun f => let r := c.reportOf f; (dies.filter fun d => d ≠ f && (c.die d).reports.get (0, 0) f != r).map fun d => .dispatchReport d f r.1 r.2) ++
    (dies.filter fun d => (c.steal d).isSome).map (.blockSteal ·) ++
    (match c.nextGang with | some l => [.gangDrain l.vi l.lid] | none => []) ++ (match c.gangReady with | some l => [.gangReserve l.vi l.lid] | none => [])
/-- Voltage steps, clock hops, the end of a droop (R404, R406, R408): only while some row or core is not as at reset. -/
def Chip.powerActs (e : Env) (c : Chip) : List Ev :=
  if c.rows.isEmpty && c.pcores.isEmpty && c.power.slowLeft == 0 then []
  else
    ((List.range 384).filter c.stepDue).map (.voltageStep ·) ++ ((List.range 6144).filter c.hopDue).map (.clockHop ·) ++
    ((c.rows.filter fun r => r.2.droop && decide (r.2.droopUntil ≤ e.now)).map fun r => .voltageRecovered r.1)
/-- Every act of a unit that the state enables. -/
def Chip.acts (e : Env) (c : Chip) : List Ev :=
  (c.ctxs.flatMap fun p => c.ctxActs e p.1 p.2) ++ (c.cores.flatMap fun p => c.coreActs e p.1 p.2) ++ (c.dies.flatMap fun p => c.dieActs p.1 p.2) ++
  (c.queues.flatMap fun p => c.queueActs e p.1 p.2) ++ c.dispatchActs e ++ c.powerActs e ++
  ((c.vis.filter fun p => c.tornDown p.1).map fun p => .teardownComplete p.1) ++ ((c.ports.filter fun p => p.2.rollDue).map fun p => .keyRollover ⟨p.1, false, false⟩) ++
  (if c.nextSample ≤ e.now then [.hedgeSample] else [])

/-! ### The choice -/

/-- What a step does: an event of the state, a message or timer at its place, the first input, or the issue of a context. -/
inductive Todo where
  | act (ev : Ev)
  | deliver (i : Nat)
  | input
  | issue (xk : Nat)
  deriving DecidableEq, Repr

/-- The periodic event that is due (R102, R410, R412); HEDGE_SAMPLE goes at its GTIME with the rest of the cycle (R94). -/
def Chip.periodic (e : Env) (c : Chip) : Option Ev :=
  if c.nextRefill ≤ e.now then some .budgetRefill
  else if c.nextInterval ≤ e.now then some .controlInterval
  else if c.nextRamp ≤ e.now then some .rampStep
  else none
/-- The cores with a context that holds work. -/
def Chip.liveCores (c : Chip) : List Nat := (c.ctxs.map fun p => coreOf p.1).eraseDups
/-- The interface whose hedging budget a register write changes (R101). -/
def Ev.budgetOf (ev : Ev) : Option Nat :=
  match ev with
  | .registerWrite off _ => if 0x42000 ≤ off ∧ off < 0x43000 then some ((off - 0x42000) / 64) else none
  | _ => none
/-- The first input can be taken: a write of a budget goes before the device's own changes of that cycle (R102). -/
def Chip.inputReady (c : Chip) : Bool :=
  match c.inputs with
  | [] => false
  | ev :: _ => !(ev.budgetOf.any fun v => (c.vi v).budgetBusy)
/-- Everything that can happen next. -/
def Chip.options (e : Env) (c : Chip) : List Todo :=
  (if c.inputReady then [.input] else []) ++ ((c.deliverable e).map .deliver) ++ (((c.acts e).filter fun a => c.allInTurn e.now (c.actDids e a)).map .act) ++ ((c.liveCores.filter (c.ownTurn e.now)).filterMap (c.nextIssue e)).map .issue
/-- The choice among them; an observer's choice of the context that issues next comes first (log 5). -/
def Chip.choose (e : Env) (c : Chip) : Option Todo :=
  match c.turn with
  | some xk => if c.canIssue e xk then some (.issue xk) else none
  | none =>
    match c.periodic e with
    | some ev => some (.act ev)
    | none => match c.options e with
      | [] => none
      | [t] => some t
      | t :: l => (t :: l)[Config.pick c.picks % (l.length + 1)]?

/-- A request to the SPDM responder (R75). -/
def Ev.isSpdm (ev : Ev) : Bool :=
  match ev with
  | .getVersion _ | .getCapabilities _ | .negotiateAlgorithms _ | .getDigests _ | .getCertificate _ | .challenge _ | .getMeasurements .. | .keyExchange _
  | .finish _ | .endSession _ => true
  | _ => false

/-! ### Time and the way out of the device -/

/-- GTIME after a step: it rises by a free number of ticks, and while the package runs not past the next periodic event (R3, R94,
R102, R410, R412, log 5). -/
def Chip.nextTime (c : Chip) (now : Nat) : Nat :=
  let t := now + Config.ticks c.picks
  if c.tan.stage = 3 then max now (min t (min (min c.nextRefill c.nextSample) (min c.nextInterval c.nextRamp))) else t
/-- What a new GTIME ends in the package: the cycle in which a budget was changed, or in which operations completed (R102, R227). -/
def Chip.newCycle (c : Chip) : Chip :=
  let clear (p : Nat × Vi) : Nat × Vi := (p.1, { p.2 with budgetBusy := false })
  let done (p : Nat × Ctx) : Nat × Ctx := (p.1, { p.2 with fpNow := 0 })
  { c with vis := c.vis.map clear, ctxs := c.ctxs.map done }
/-- The matrix units that are free take the next work of their contexts (R271). -/
def Chip.serveAll (now : Nat) (c : Chip) : Chip := c.liveCores.foldl (fun c ck => c.mxServe now ck) c
/-- A message of this step whose destination is its own source endpoint is performed in the next cycle at the earliest (R65). -/
def Chip.stampSelf (now : Nat) (c : Chip) : Chip :=
  { c with net := c.net.map fun (f : Flight) => if f.src = f.dst ∧ f.dst ≠ 0xFFFFF ∧ f.at_ = 0 then { f with at_ := now + 1 } else f }
/-- After a step GTIME may have risen, a message for outside may leave, and which lines hold an uncorrectable error is free (R3,
R66, R374, log 5, 86). -/
def State.tick (s : State) : State :=
  let t := s.chip.nextTime s.now
  let c := { (((s.chip.drain ⟨s.mem, s.now⟩).serveAll s.now).ship.dropDeficits).stampSelf s.now with picks := s.chip.picks + 1, bad := Config.badLines s.chip.picks }
  { s with now := t, chip := if s.now < t then c.newCycle else c }
/-- A step's outcome with `tick` after a next state. -/
def andTick (o : Host.Outcome State Fault Refusal) : Host.Outcome State Fault Refusal :=
  match o with
  | .next s => .next s.tick
  | .fault f => .fault f
  | .refused r => .refused r
/-- What a fetch that no translation allows has its translation home do: it is logged there in home order with other requests (R384). -/
def Chip.fetchDid (c : Chip) (xk : Nat) (va : W64) : List Did := [⟨transNode va, 4, c.nodeKey (coreNode (coreOf xk)), none⟩]
/-- The issue of a context: fetch, decode, and the meaning of the instruction; a word that no instruction has is ILL (R111). A fetch
whose fault would be logged out of turn is made in the next cycle (R384). -/
def stepIssue (s : State) (xk : Nat) : Host.Outcome State Fault Refusal :=
  match fetch ⟨s.mem, s.now⟩ ((s.chip.startIssue s.now xk).noteDids s.now [ownDid (coreOf xk)]) xk with
  | .fault code tval c =>
    if code = 8 ∧ !c.allInTurn s.now (c.fetchDid xk tval) then .next { s with chip := c.stall xk (.time (s.now + 1)) }
    else execFetchFault code tval { s with chip := if code = 8 then c.noteDids s.now (c.fetchDid xk tval) else c }
  | .hold c => .next { s with chip := c.stall xk (.time (s.now + 1)) }
  | .word w c => match decode w with
    | some i => exec i { s with chip := c }
    | none => execIll w { s with chip := c }
/-- How an input reaches the device: over the fabric from a host (true) or from another device (false), or not over the fabric
(none): a write that REGISTER_WRITE has passed on, link control, and what happens inside the package. -/
def Ev.over (ev : Ev) : Option Bool :=
  match ev with
  | .registerWrite .. => some true
  | .translate q | .loadRequest q | .storeRequest q | .atomicRequest q | .lockRequest q | .lkqRequest q | .claimRequest q | .groupClaim q
  | .pinRequest q | .publish q | .claimRelease q | .streamLine q _ => some (q.host && (reqPeer q).isNone)
  | .messageArrival _ | .reoffer _ | .withdraw _ | .messageAnswer .. | .taskArrive _ | .callatReply .. | .backupRequest _ | .hedgeRequestTimeout _ | .winNotice _ | .loadReply .. | .storeAck ..
  | .receiverFault .. | .handlerMessage _ | .stagger .. | .slow .. | .budgetCheck _ | .cancelCopy .. => some false
  | _ => if ev.isSpdm then some true else none
/-- The endpoints of R62. -/
def epOk (n : Nat) : Bool := decide (n < 0x300) || (decide (0x400 ≤ n) && decide (n < 0x600)) || n == 0x800 || n == 0x801 || n == 0xF00
/-- The place that a message from outside names as its destination. -/
def Ev.target (ev : Ev) : Option Nat :=
  match ev with
  | .messageArrival m | .taskArrive m | .withdraw m => some m.dst
  | .loadRequest q | .storeRequest q | .atomicRequest q | .lockRequest q | .lkqRequest q | .claimRequest q | .groupClaim q | .pinRequest q
  | .publish q | .claimRelease q | .streamLine q _ => some q.home
  | _ => none
/-- A message to an endpoint that R62 does not name is reported to system software as MCHECK. -/
def Chip.noEndpoint (c : Chip) (src : Nat) : Chip := { c with outbox := c.outbox ++ [(bridgeNode, .mcheck src)] }
/-- The first input. While the compute dies are in reset they take none, and a request to Tantalum's responder goes to it as a message of
MGT (R73, R75, log 9); afterwards an input over the fabric needs a port that carries it (R31, R70), where its flits may fail
authentication first (R63), a message to no endpoint is discarded (R62), and SPDM requests travel on to Tantalum in class MGT (R64, R75). -/
def stepInput (s : State) : Host.Outcome State Fault Refusal :=
  match s.chip.inputs with
  | [] => .next s
  | ev :: r =>
    let s' := { s with chip := { s.chip with inputs := r } }
    if s.chip.tan.stage ≠ 3 then .next (if ev.isSpdm then { s' with chip := s'.chip.send bridgeNode tanNode .mgt ev } else s')
    else match ev.over with
      | none => execEv ev s'
      | some h => match s.chip.entryPort h ev with
        | none => .next s'
        | some p =>
          if Config.authFails s.chip.frees then .next { s with chip := s.chip.authFailed p }
          else
            let c := ({ s'.chip with frees := s'.chip.frees + 1 } : Chip).received p ev
            if ev.isSpdm then .next { s' with chip := c.send bridgeNode tanNode .mgt ev }
            else if ev.target.all (fun n => epOk (nodeEp n)) then execEv ev { s' with chip := c }
            else .next { s' with chip := c.noEndpoint bridgeNode }
/-- A message or timer is taken from the list and does its work; a message to an endpoint that R62 does not name is discarded and
reported to system software. -/
def stepDeliver (s : State) (i : Nat) : Host.Outcome State Fault Refusal :=
  match s.chip.net[i]? with
  | some f =>
    let c := { s.chip.noteDid s.now f with net := s.chip.net.eraseIdx i }
    if f.dst = 0xFFFFF ∨ epOk (nodeEp f.dst) then execEv f.ev { s with chip := c }
    else .next { s with chip := c.noEndpoint f.src }
  | none => .next s
/-- A message to Tantalum that it can take now. -/
def Chip.forTantalum (now : Nat) (c : Chip) : Option Nat :=
  (List.range c.net.length).find? fun i => (c.net[i]?).any fun f => f.dst == tanNode && decide (f.at_ ≤ now)
/-- One step of a package that runs: Tantalum's boot first (R73), then the choice; where the boot has failed Tantalum alone goes on. -/
def stepRun (s : State) : Host.Outcome State Fault Refusal :=
  if s.chip.tan.stage ≠ 3 then
    (if s.chip.tan.fail = 0 then execTantalumBoot bootManifest bootFlash s
     else match s.chip.forTantalum s.now with
       | some i => stepDeliver s i
       | none => stepInput s)
  else match s.chip.choose ⟨s.mem, s.now⟩ with
    | none => .next { s with chip := { s.chip with turn := none } }
    | some (.act ev) => execEv ev { s with chip := s.chip.noteDids s.now (s.chip.actDids ⟨s.mem, s.now⟩ ev) }
    | some (.deliver i) => stepDeliver s i
    | some .input => stepInput s
    | some (.issue xk) => stepIssue s xk

end Sys2Proof.Machine
end

