-- ==== Sys2Proof/Machine/Step.lean ====
section
/-! DEFINITION. One step of the package, and the place where its next instruction word is stored (R73, R80, R104, R452). -/
namespace Sys2Proof.Machine
open Sys2Proof

/-- One step: a stopped package makes none (R452). -/
def step (s : State) : Host.Outcome State Fault Refusal :=
  if s.chip.stopped then .fault .packageStopped else andTick (stepRun s)

/-- The context that `withFetchWord` makes ready: C0 of core 0 of die 0. -/
def fetchCtx : Nat := 0
/-- The address at which `withFetchWord` stores the instruction where the context's PC is not a place that fetch may read. -/
def codeVa : W64 := 0x8000000000000#64
/-- Page-table words of `withFetchWord`: address in HBM and value. The level-0 table is at 0x10000, the pages of code at 0x20000. -/
def codeTables : List (Nat × Nat) :=
  [(0x10000, 1 + 0x18000), (0x18000, 1 + 0x1A000), (0x1A000, 1 + 0x1C000), (0x1C000, 1 + 4 + 8 + 32 + 0x20000), (0x1C008, 2 ^ 33 + 1)]
/-- The state in which the very next step fetches and runs the instruction `w` (its low 32 bits): the dies are released, an
observer has chosen context 0 to issue, and it is READY, at `codeVa`, in a page that its interface may execute. -/
def State.withFetchWord (s : State) (_nbits w : Nat) : State :=
  let x := s.chip.ctx fetchCtx
  let m := (codeTables.foldl (fun (m : Mem) p => m.puts p.1 (leBytes 8 p.2)) s.mem).puts 0x20000 (leBytes 4 w)
  let y : Ctx := { x with st := .ready, pc := codeVa, fromPfx := false, fmt := none, wait := .free, pend := {}, mop := none, yield := none,
                          ending := none, kept := [], word := none, repair := none, ops := [], replay := [], replaying := false, toPost := [], upcallDue := false, kind := .host, noBudget := true, vi := 0 }
  let c := (s.chip.setCtx fetchCtx y).modVi 0 fun v => { v with pten := true, ptbase := 0x10000, quiesced := true }
  { s with mem := m, chip := { c with tan := { c.tan with stage := 3 }, turn := some fetchCtx, stopped := false, tlb := [] } }

end Sys2Proof.Machine
end

