-- ==== Sys2Proof/Safety.lean ====
section
/-! DEFINITION. The terms that claims are stated in: what counts as a safe state, when an instruction of the context that
issues has its effect, and the states it then leads to. -/
namespace Sys2Proof.Machine
open Sys2Proof

/-- Memory is in its canonical form and no write of an earlier step is left over. -/
def State.Inv (s : State) : Prop := s.mem.wf = true ∧ s.chip.wr = []
/-- What a step reads and cannot change. -/
def State.env (s : State) : Env := ⟨s.mem, s.now⟩
/-- The context that issues, as it is at its issue (R124, R388). -/
def State.cx (s : State) : Ctx := (s.chip.ctx s.chip.cur).begin_
/-- The package with that record in place. -/
def State.at_ (s : State) : Chip := s.chip.setCtx s.chip.cur s.cx
/-- The core of the context that issues. -/
def State.ck (s : State) : Nat := coreOf s.chip.cur
/-- Nothing keeps an instruction from its effect: no prefix, or a legal one that it takes (R111), its registers are free (R104, R270),
no LDACQ holds its access (R309), and its counter has room (R150). -/
def State.canRun (s : State) (pfx : Bool) (u : Use) : Prop :=
  s.chip.wr = [] ∧ (s.cx.fmt = none ∨ (pfx = true ∧ ∃ w, s.cx.fmt = some w ∧ fmtLegal w = true)) ∧
    s.cx.blocked u = false ∧ (u.mem = true → s.cx.acquiring = false) ∧ (u.ctr = .none ∨ s.cx.cnt u.ctr < 63)
/-- The next PC is aligned: a hardware loop may lead to a misaligned start (R145). -/
def State.nextOk (s : State) : Prop := (s.cx.nextPc s.cx.pc).2.toNat % 4 = 0
/-- The package `c` of an instruction that has sent a request and stalls on it, or started a macro-op, unless its next PC is
misaligned: then it has trapped first (R145). -/
def State.early (s : State) (c : Chip) : Chip :=
  if (s.cx.nextPc s.cx.pc).2.toNat % 4 ≠ 0 then s.at_.trapHere s.chip.cur 0x03 (s.cx.nextPc s.cx.pc).2 else c
/-- The package after an instruction whose effect ends so: retired with the end check of R145, jumped, trapped or waiting. -/
def State.settles (s : State) : Fate → Chip
  | .retire c =>
    let r := (c.ctx s.chip.cur).nextPc s.cx.pc
    if r.2.toNat % 4 ≠ 0 then s.at_.trapHere s.chip.cur 0x03 r.2 else c.setCtx s.chip.cur (r.1.retired r.2)
  | .jump c t => c.setCtx s.chip.cur (((c.ctx s.chip.cur).leaveLoops t).retired t)
  | .trap code tval => s.at_.trapHere s.chip.cur code tval
  | .wait c w => if (c.ctx s.chip.cur).pend.kind.early then s.early (c.stall s.chip.cur w) else c.stall s.chip.cur w
  | .stay c => if (c.ctx s.chip.cur).mop.isSome then s.early c else c
/-- The instruction has retired from the package `c`, with the end check of R145 (R93, R104). -/
def State.retiresIn (s : State) (c : Chip) : State :=
  let r := (c.ctx s.chip.cur).nextPc s.cx.pc
  commit s (c.setCtx s.chip.cur (r.1.retired r.2))
/-- The instruction has retired, and its only effect is `f` on the record of its context. -/
def State.retires (s : State) (f : Ctx → Ctx) : State := s.retiresIn (s.at_.modCtx s.chip.cur f)
/-- The instruction has transferred control to `t`, and its only other effect is `f` on the record of its context (R146). -/
def State.jumps (s : State) (f : Ctx → Ctx) (t : W64) : State :=
  commit s (s.at_.setCtx s.chip.cur (((f s.cx).leaveLoops t).retired t))
/-- The instruction has trapped without effect: a precise trap at its own PC (R371, R374). -/
def State.traps (s : State) (code : Nat) (tval : W64) : State := commit s (s.at_.trap s.chip.cur false code s.cx.pc tval)
/-- The instruction waits at its PC without effect (R79). -/
def State.waits (s : State) (w : WaitOn) : State := commit s (s.at_.stall s.chip.cur w)
/-- The record of the context that has issued, in a later state. -/
def State.after (s t : State) : Ctx := t.chip.ctx s.chip.cur
/-- An access to [a, a + n) of the own window that nothing stops or holds, at offset `off` (R157, R159, R162, R184, R331). -/
def State.ownAccess (s : State) (a : W64) (n al off : Nat) : Prop :=
  s.at_.check s.chip.cur a n al = none ∧ s.at_.ownOff s.chip.cur a n = some off ∧ s.cx.lostOver a n = none ∧ s.cx.placeBusy a n = false
/-- An access to global memory that passes its checks and that nothing holds (R159, R184, R331). -/
def State.globalAccess (s : State) (a : W64) (n al : Nat) : Prop :=
  s.at_.check s.chip.cur a n al = none ∧ space a = 2 ∧ s.cx.lostOver a n = none ∧ s.cx.placeBusy a n = false
/-- The byte of the own scratchpad at an offset, before the step. -/
def State.spByte (s : State) (off : Nat) : Byte := s.mem.read (sram s.ck off)
/-- No register of the two records differs: scalar, vector and mask registers, flags, mode and the special registers of R125. -/
def Ctx.sameRegs (x y : Ctx) : Prop :=
  (∀ n, y.getX n = x.getX n ∧ y.getV n = x.getV n ∧ y.getK n = x.getK n) ∧ y.fpflags = x.fpflags ∧ y.fprnd = x.fprnd ∧ y.priv = x.priv ∧
    y.ppriv = x.ppriv ∧ y.cause = x.cause ∧ y.epc = x.epc ∧ y.tval = x.tval ∧ y.trapvec = x.trapvec ∧ y.upcallvec = x.upcallvec ∧
    y.msh = x.msh ∧ y.cp = x.cp ∧ y.lps = x.lps ∧ y.lpe = x.lpe
/-- Nothing but the context that issues has changed: memory and every other context are as before. -/
def State.keepsRest (s t : State) : Prop := t.mem = s.mem ∧ ∀ k, k ≠ s.chip.cur → t.chip.ctx k = s.chip.ctx k

end Sys2Proof.Machine
end

