-- ==== Sys2Proof/Certificates/Slice0/Obligations.lean ====
section
/-! DEFINITION. The statements for the provers, in the order of the spec's files: the machine as a whole, then what each family of
instructions and events does. -/
open Sys2Proof Sys2Proof.Machine

/-! ### The machine as a whole -/

/-- R109 to R122: no bit of an encoding is dropped: the decoder reads from the word of every well-formed instruction that instruction,
whatever its operands. -/
def Obligations.DecodeOfEncode : Prop :=
  ∀ i : Instr, i.isWord = true → i.wf = true → decode (encode i) = some i

/-- R109 to R122: words written out field by field from the opcode map and the format table. -/
def Obligations.SampleWordsDecode : Prop :=
  decode 0x04C67000#32 = some (.add 6 6 14) ∧ decode 0x08A5BFD0#32 = some (.addi 5 5 0xBFD0) ∧ decode 0x20A50020#32 = some (.slli 5 5 32) ∧
  decode 0x40200010#32 = some (.jal 1 16) ∧ decode 0x60E9FFC4#32 = some (.lw 7 9 (-8)) ∧ decode 0x64620062#32 = some (.sw 3 2 12) ∧
  decode 0x80642800#32 = some (.fadd 3 4 5 0) ∧ decode 0xE4A73000#32 = some (.amadd 5 7 6 0) ∧ decode 0xF80000A0#32 = some (.trap 5) ∧
  decode 0xF0053000#32 = some (.send 5 6) ∧ decode 0xD805000D#32 = some (.mtc 5 13) ∧ decode 0#32 = none ∧ decode 0xFFFFFFFF#32 = none

/-- R73, R79, R104, R111: when the compute dies are released, the choice of the step is a context's issue, and the word it fetches decodes
to `i`, the step is `i`'s meaning, followed by the passing of time; a word that no instruction has traps ILL, a fetch that fails takes its
trap, and one whose page is being reclassified waits; a stopped package makes no step. R384: a fetch that finds no translation is logged at
its translation home in its turn there, and is made again in the next cycle where its turn is over. Which step is chosen and how much time
passes are free values of the model (log 5). -/
def Obligations.StepRunsDecodedInstruction : Prop :=
  ∀ (s : State) (xk : Nat) (w : Word) (c : Chip), s.chip.tan.stage = 3 → s.chip.choose ⟨s.mem, s.now⟩ = some (.issue xk) →
    let f := fetch ⟨s.mem, s.now⟩ ((s.chip.startIssue s.now xk).noteDids s.now [ownDid (coreOf xk)]) xk
    (s.chip.stopped = false → ∀ i, f = .word w c → decode w = some i → step s = andTick (exec i { s with chip := c })) ∧
    (s.chip.stopped = false → f = .word w c → decode w = none → step s = andTick (execIll w { s with chip := c })) ∧
    (s.chip.stopped = false → ∀ code v, f = .fault code v c → code ≠ 8 → step s = andTick (execFetchFault code v { s with chip := c })) ∧
    (s.chip.stopped = false → ∀ v, f = .fault 8 v c →
      (c.allInTurn s.now (c.fetchDid xk v) = true → step s = andTick (execFetchFault 8 v { s with chip := c.noteDids s.now (c.fetchDid xk v) })) ∧
      (c.allInTurn s.now (c.fetchDid xk v) = false → step s = andTick (.next { s with chip := c.stall xk (.time (s.now + 1)) }))) ∧
    (s.chip.stopped = false → f = .hold c → step s = andTick (.next { s with chip := c.stall xk (.time (s.now + 1)) })) ∧
    (s.chip.stopped = true → step s = .fault .packageStopped)

/-- The reset values that the spec states: GROUP (R31), VICTL (R37), CMAP (R81), the registers of a context (R107), SRSPLIT (R160), full
lines (R209), LOCKCFG (R335), FBSTAT.WM (R380), RAMPTAB and DWELL (R409), PWRCFG (R413), ROWPWR (R402); with it the invariant. That every
context is IDLE and that memory lists nothing, and every value the spec does not give, are the model's choice (logs 2 to 4). -/
def Obligations.ResetState : Prop :=
  let c := State.reset.chip
  State.reset.Inv ∧ c.group = 0 ∧ c.tan.stage = 0 ∧ c.tan.fail = 0 ∧
  (∀ v, (c.vi v).en = false ∧ (c.vi v).quiesced = true ∧ (c.vi v).keyv = false ∧ (c.vi v).ptbase = 0 ∧ (c.vi v).vitrap = 0 ∧ (c.vi v).drrw = 1) ∧
  (∀ d n, (c.die d).cmap.get n n = n) ∧ (∀ d, (c.die d).split = 0 ∧ (c.die d).wm = 512 ∧ (c.die d).dwell = 16) ∧
  (∀ d, (c.die d).ramp0 = 0x201C1814100C0804 ∧ (c.die d).ramp1 = 0x403C3834302C2824) ∧
  (∀ k, let x := c.ctx k
    x.st = .idle ∧ x.pc = 0 ∧ x.priv = false ∧ x.cause = 0 ∧ x.epc = 0 ∧ x.tval = 0 ∧ x.trapvec = 0 ∧ x.fpflags = 0 ∧ x.fprnd = 0 ∧ x.dlen = true ∧ x.holdlg = 20 ∧
    x.getK 0 = BitVec.allOnes 64 ∧ (∀ n, x.getX n = 0 ∧ x.getV n = 0) ∧ (∀ n, n ≠ 0 → x.getK n = 0)) ∧
  (∀ k off, (c.core k).empty.contains off = false) ∧ c.power.cfg = 0x695C800A00002800 ∧
  (∀ r, (c.row r).vcur = 75 ∧ (c.row r).vreq = 75 ∧ (c.row r).ceil = 15 ∧ (c.row r).lvl = 0) ∧ c.net = []

/-- From every state that meets the invariant, a step leads only to states that meet it: memory stays in its canonical form, and no write of
a step is left over. The canonical form is the model's own. -/
def Obligations.StepKeepsInv : Prop :=
  ∀ s t : State, s.Inv → step s = .next t → t.Inv

/-- Every instruction word and every event leads to a next state, whatever the state, without moving GTIME; so a step of a package that is
not stopped always has a next state, and GTIME never falls (R3, R452). That a step is one row of the opcode table is the model's reading
(log 1), and the time that passes is free (log 5). -/
def Obligations.EveryStepHasANextState : Prop :=
  (∀ (i : Instr) (s : State), ∃ t, exec i s = .next t ∧ t.now = s.now) ∧
  (∀ s : State, s.chip.stopped = false → ∃ t, step s = .next t ∧ s.now ≤ t.now)

/-- R104, R105, R173: a context in STALL goes on with the word that it has. Else a PC outside global space traps PERM, a misaligned one
MISPC (PERM first where both hold is the model's choice, log 100); a translation that fails gives its own code, a PRIVATE page of another
core is asked back first, and an uncorrectable error is MCHECK; otherwise the word is the four bytes at the PC in memory, the byte at the
lowest address first (no private copy of the line or write-back of it under way, and no other word kept from before). Which of an old and
a changed word is fetched is free (log 7). -/
def Obligations.FetchReadsTheWordAtThePC : Prop :=
  ∀ (e : Env) (c : Chip) (xk : Nat),
    let x := c.ctx xk
    let pc := x.pc.toNat
    let t := xlate e c x.vi x.pc 2 (some (coreOf xk)) (some (coreOf xk)) false
    (∀ w, x.st = .stall → x.word = some w → fetch e c xk = .word w c) ∧
    (x.st ≠ .stall ∨ x.word = none →
      (pc / 2 ^ 52 ≠ 0 ∨ pc / 2 ^ 50 % 4 ≠ 2 → fetch e c xk = .fault 0x09 x.pc c) ∧
      (pc / 2 ^ 52 = 0 → pc / 2 ^ 50 % 4 = 2 → pc % 4 ≠ 0 → fetch e c xk = .fault 0x03 x.pc c) ∧
      (pc / 2 ^ 52 = 0 → pc / 2 ^ 50 % 4 = 2 → pc % 4 = 0 →
        (∀ code m, t = .fault code m → ∃ c', fetch e c xk = .fault code x.pc c') ∧
        (∀ o page size leaf, t = .hold o page size leaf → ∃ c', fetch e c xk = .hold c') ∧
        (∀ c' home pa lease own perm, t = .ok c' home pa lease own perm → (home = bridgeNode → c'.linkGone (extHost pa) = false) →
          (c'.badAt pa 4 = true → ∃ c'', fetch e c xk = .fault 0x10 x.pc c'') ∧
          (c'.badAt pa 4 = false → (c'.core (coreOf xk)).l1 = [] → (∀ f ∈ c'.net, ∀ b, f.ev = .writeBack b → b.pa / 128 ≠ pa / 128) → x.kept = [] →
            (home = bridgeNode ∨ ∀ i < 4, c'.tags.get 0 ((pa + i) / 128) = 0 ∨ c'.tags.get 0 ((pa + i) / 128) = x.vi + 1) →
            ∃ w c'', fetch e c xk = .word w c'' ∧ w.toNat = (rd e c' pa).toNat + 256 * (rd e c' (pa + 1)).toNat + 65536 * (rd e c' (pa + 2)).toNat + 16777216 * (rd e c' (pa + 3)).toNat))))

/-- R124, R371 to R374: taking a trap saves the PC, the code, the value and the mode, keeps a live prefix for the resumption, enters
privileged mode and goes to TRAPVEC; every other register, the loop registers, SEQSTATE and the operations that are out are left alone. With
TRAPVEC 0 the context ends. R396: ERET goes back. R388: a context that has left HALT and has issued nothing yet gets the saved registers of
its stop shadow back first. -/
def Obligations.TakingATrap : Prop :=
  ∀ (x : Ctx) (recv : Bool) (code : Nat) (epc tval : W64), code < 256 → epc.toNat % 4 = 0 →
    let y := x.take recv code epc tval
    (x.shadow ≠ none → x.ldPC = none → y = x.begin_.take recv code epc tval) ∧
    (x.shadow = none ∨ x.ldPC ≠ none →
    y.cause.toNat = (if recv then 256 else 0) + code ∧ y.epc = epc ∧ y.tval = tval ∧ y.ppriv = x.priv ∧ y.priv = true ∧ y.pc = x.trapvec ∧ y.fmt = none ∧
    (∀ w, x.fmt = some w → y.pendPfx = true ∧ y.pfxsave = w.setWidth 64) ∧ (x.fmt = none → y.pendPfx = x.pendPfx ∧ y.pfxsave = x.pfxsave) ∧
    (∀ n, y.getX n = x.getX n ∧ y.getV n = x.getV n ∧ y.getK n = x.getK n) ∧ y.lps = x.lps ∧ y.lpe = x.lpe ∧ y.lpc = x.lpc ∧ y.seqValid = x.seqValid ∧
    y.seqSeg = x.seqSeg ∧ y.ops = x.ops ∧ y.held = x.held ∧ y.unit = x.unit ∧ y.fpflags = x.fpflags ∧ y.fprnd = x.fprnd ∧ y.msh = x.msh ∧ y.cp = x.cp ∧
    y.vismax = x.vismax ∧ y.workctr = x.workctr ∧ y.geom = x.geom ∧ y.tilecoord = x.tilecoord ∧ y.dlen = x.dlen ∧ y.holdlg = x.holdlg ∧
    y.trapvec = x.trapvec ∧ y.upcallvec = x.upcallvec ∧ (x.trapvec ≠ 0 → y.st = .ready ∧ y.ending = x.ending) ∧ (x.trapvec = 0 → y.ending ≠ none) ∧
    (x.ldPC = none → y.ret.pc = epc ∧ y.ret.priv = x.priv))

/-- R111, R123, R150: for every instruction word: under a saved prefix that is no FMT word it traps ILL; a privileged one in user mode traps
PRIV; under a prefix, one that takes none traps PFXMIS and the prefix is gone. R104, R150, R270: ADD waits for a register that is still out,
MREL for a tile register in use, and LD for room in its counter. The order of ILL for a saved prefix before the other checks is the model's
reading (log 53). -/
def Obligations.ChecksBeforeEffect : Prop :=
  ∀ (s : State) (i : Instr), s.chip.wr = [] → i.isWord = true →
    let x := s.cx
    let trapped (code : Nat) (v : W64) : Prop := ∃ t, exec i s = .next t ∧ s.keepsRest t ∧ (s.after t).cause = w64 code ∧ (s.after t).epc = w64 (x.pc.toNat / 4 * 4) ∧
      (s.after t).tval = v ∧ (s.after t).priv = true ∧ (s.after t).ppriv = x.priv ∧ (s.after t).pc = x.trapvec ∧ (s.after t).fmt = none ∧
      (s.after t).pendPfx = x.pendPfx ∧ (s.after t).ops = x.ops ∧ ∀ n, (s.after t).getX n = x.getX n
    (∀ w, x.fmt = some w → fmtLegal w = false → trapped 0x01 (w.setWidth 64)) ∧
    (i.privileged = true → x.priv = false → (x.fmt = none ∨ ∃ w, x.fmt = some w ∧ fmtLegal w = true) → exec i s = .next (s.traps 0x02 ((encode i).setWidth 64))) ∧
    (∀ w, x.fmt = some w → fmtLegal w = true → i.takesPrefix = false → (i.privileged = true → x.priv = true) → trapped 0x04 (w.setWidth 64)) ∧
    (x.fmt = none → x.acquiring = false → ∀ (d a b : BitVec 5) (m : BitVec 3) (o : BitVec 13),
      (x.blocked { x := [d.toNat, a.toNat, b.toNat] } = true → exec (.add d a b) s = .next (s.waits (.regs [d.toNat, a.toNat, b.toNat] [] [] []))) ∧
      (x.blocked { wm := [m.toNat] } = true → exec (.mrel m) s = .next (s.waits (.regs [] [] [] [m.toNat]))) ∧
      (x.blocked { x := [d.toNat, a.toNat], ctr := .ld, mem := true } = false → x.cnt .ld = 63 → exec (.ld d a o) s = .next (s.waits (.ctrs 62 63 63 63 63))))

/-! ### Integer instructions (05_issued_scalar.md) -/

/-- R134, R135: the results of the register forms that move, add, compare and count bits, on exact integers modulo 2^64. -/
def Obligations.IntegerRegisterResults : Prop :=
  ∀ (s : State) (d a b : BitVec 5), s.canRun false { x := [d.toNat, a.toNat, b.toNat] } → s.nextOk →
    let u := s.cx.getX a.toNat
    let v := s.cx.getX b.toNat
    let gives (i : Instr) (r : W64) : Prop := exec i s = .next (s.retires fun x => x.setX d.toNat r)
    gives (.add d a b) (BitVec.ofInt 64 (u.toInt + v.toInt)) ∧
    gives (.sub d a b) (BitVec.ofInt 64 (u.toInt - v.toInt)) ∧
    gives (.and d a b) (u &&& v) ∧
    gives (.andn d a b) (u &&& ~~~v) ∧
    gives (.or d a b) (u ||| v) ∧
    gives (.xor d a b) (u ^^^ v) ∧
    gives (.sll d a b) (BitVec.ofNat 64 (u.toNat * 2 ^ (v.toNat % 64))) ∧
    gives (.srl d a b) (BitVec.ofNat 64 (u.toNat / 2 ^ (v.toNat % 64))) ∧
    gives (.sra d a b) (BitVec.ofInt 64 (u.toInt / 2 ^ (v.toNat % 64))) ∧
    gives (.mul d a b) (BitVec.ofInt 64 (u.toInt * v.toInt)) ∧
    gives (.mulh d a b) (BitVec.ofInt 64 (u.toInt * v.toInt / 2 ^ 64)) ∧
    gives (.mulhn d a b) (BitVec.ofNat 64 (u.toNat * v.toNat / 2 ^ 64)) ∧
    gives (.min d a b) (if u.toInt < v.toInt then u else v) ∧
    gives (.max d a b) (if u.toInt < v.toInt then v else u) ∧
    gives (.minn d a b) (if u.toNat < v.toNat then u else v) ∧
    gives (.maxn d a b) (if u.toNat < v.toNat then v else u) ∧
    gives (.slt d a b) (if u.toInt < v.toInt then 1 else 0) ∧
    gives (.sltn d a b) (if u.toNat < v.toNat then 1 else 0) ∧
    gives (.seq d a b) (if u = v then 1 else 0) ∧
    (∃ n, gives (.clz d a) (BitVec.ofNat 64 n) ∧ n ≤ 64 ∧ u.toNat < 2 ^ (64 - n) ∧ (n < 64 → 2 ^ (63 - n) ≤ u.toNat)) ∧
    (∃ n, gives (.ctz d a) (BitVec.ofNat 64 n) ∧ n ≤ 64 ∧ u.toNat % 2 ^ n = 0 ∧ (n < 64 → u.toNat / 2 ^ n % 2 = 1)) ∧
    gives (.popc d a) (BitVec.ofNat 64 ((List.range 64).countP fun j => u.getLsbD j))

/-- R136: division: truncated quotient and remainder, and the results of its boundary cases. R137: BEXT takes LEN bits from POS up, and BINS
puts them there; bits beyond bit 63 read as zero and are discarded. -/
def Obligations.DivisionAndBitFields : Prop :=
  (∀ (s : State) (d a b : BitVec 5), s.canRun false { x := [d.toNat, a.toNat, b.toNat] } → s.nextOk →
     let u := s.cx.getX a.toNat
     let v := s.cx.getX b.toNat
     ∃ q qn r rn : W64,
       exec (.div d a b) s = .next (s.retires fun x => x.setX d.toNat q) ∧
       exec (.divn d a b) s = .next (s.retires fun x => x.setX d.toNat qn) ∧
       exec (.rem d a b) s = .next (s.retires fun x => x.setX d.toNat r) ∧
       exec (.remn d a b) s = .next (s.retires fun x => x.setX d.toNat rn) ∧
       (v = 0 → q = BitVec.ofInt 64 (-1) ∧ qn = BitVec.ofInt 64 (-1) ∧ r = u ∧ rn = u) ∧
       (v ≠ 0 → u.toNat = v.toNat * qn.toNat + rn.toNat ∧ rn.toNat < v.toNat) ∧
       (u.toInt = -2 ^ 63 ∧ v.toInt = -1 → q = 0x8000000000000000 ∧ r = 0) ∧
       (v ≠ 0 ∧ ¬(u.toInt = -2 ^ 63 ∧ v.toInt = -1) →
         u.toInt = v.toInt * q.toInt + r.toInt ∧ r.toInt.natAbs < v.toInt.natAbs ∧ (r.toInt = 0 ∨ (r.toInt < 0 ↔ u.toInt < 0)))) ∧
  (∀ (s : State) (d a b : BitVec 5), s.canRun false { x := [d.toNat, a.toNat, b.toNat] } → s.nextOk →
     let u := s.cx.getX a.toNat
     let v := (s.cx.getX b.toNat).toNat
     let pos := v % 64
     let len := v / 64 % 64 + 1
     (∃ r : W64, exec (.bext d a b) s = .next (s.retires fun x => x.setX d.toNat r) ∧
       ∀ j < 64, r.getLsbD j = (decide (j < len) && u.getLsbD (pos + j))) ∧
     (∃ r : W64, exec (.bins d a b) s = .next (s.retires fun x => x.setX d.toNat r) ∧
       ∀ j < 64, r.getLsbD j = if pos ≤ j ∧ j < pos + len then u.getLsbD (j - pos) else (s.cx.getX d.toNat).getLsbD j))

/-- R138: the results of the immediate forms. -/
def Obligations.ImmediateResults : Prop :=
  ∀ (s : State) (d a : BitVec 5) (i : BitVec 16) (sh : BitVec 6), s.canRun false { x := [d.toNat, a.toNat] } → s.nextOk →
    let u := s.cx.getX a.toNat
    let se := i.signExtend 64
    let ze := i.setWidth 64
    let gives (i : Instr) (r : W64) : Prop := exec i s = .next (s.retires fun x => x.setX d.toNat r)
    gives (.addi d a i) (u + se) ∧
    gives (.andi d a i) (u &&& ze) ∧
    gives (.ori d a i) (u ||| ze) ∧
    gives (.xori d a i) (u ^^^ ze) ∧
    gives (.slti d a i) (if u.toInt < se.toInt then 1 else 0) ∧
    gives (.sltin d a i) (if u.toNat < se.toNat then 1 else 0) ∧
    gives (.slli d a sh) (BitVec.ofNat 64 (u.toNat * 2 ^ sh.toNat)) ∧
    gives (.srli d a sh) (BitVec.ofNat 64 (u.toNat / 2 ^ sh.toNat)) ∧
    gives (.srai d a sh) (BitVec.ofInt 64 (u.toInt / 2 ^ sh.toNat)) ∧
    gives (.lui d i) (se * 65536) ∧
    gives (.apc d i) (s.cx.pc + se * 65536)

/-- R107, R131: x0 and k0 read as constants and discard writes; the other scalar and mask registers read what was written, and a write to
one leaves the others alone. -/
def Obligations.RegisterReadAfterWrite : Prop :=
  ∀ (x : Ctx) (n m : Nat) (v : W64),
    (x.setX 0 v = x ∧ x.getX 0 = 0 ∧ x.setK 0 v = x ∧ x.getK 0 = BitVec.allOnes 64) ∧
    (n ≠ 0 → (x.setX n v).getX n = v ∧ (x.setK n v).getK n = v) ∧
    (m ≠ n → (x.setX n v).getX m = x.getX m ∧ (x.setK n v).getK m = x.getK m) ∧
    (∀ w : VReg, (x.setV n w).getV n = w ∧ (m ≠ n → (x.setV n w).getV m = x.getV m))

/-! ### Jumps, branches and loops -/

/-- R140 to R142: JAL and JALR write the link and jump; a branch jumps or goes on; a misaligned JALR target traps MISPC and writes no link.
-/
def Obligations.JumpsAndBranches : Prop :=
  ∀ (s : State) (d a b : BitVec 5) (o : BitVec 16) (f : BitVec 21),
    s.canRun false { x := [d.toNat, a.toNat, b.toNat] } → s.nextOk →
    let u := s.cx.getX a.toNat
    let v := s.cx.getX b.toNat
    let t := s.cx.pc + 4 * o.signExtend 64
    let goes (i : Instr) (p : Prop) : Prop := (p → exec i s = .next (s.jumps id t)) ∧ (¬p → exec i s = .next (s.retires id))
    exec (.jal d f) s = .next (s.jumps (fun x => x.setX d.toNat (s.cx.pc + 4)) (s.cx.pc + 4 * f.signExtend 64)) ∧
    ((u + o.signExtend 64).toNat % 4 = 0 →
      exec (.jalr d a o) s = .next (s.jumps (fun x => x.setX d.toNat (s.cx.pc + 4)) (u + o.signExtend 64))) ∧
    ((u + o.signExtend 64).toNat % 4 ≠ 0 → exec (.jalr d a o) s = .next (s.traps 0x03 (u + o.signExtend 64))) ∧
    goes (.beq a b o) (u = v) ∧ goes (.bne a b o) (u ≠ v) ∧ goes (.blt a b o) (u.toInt < v.toInt) ∧
    goes (.bge a b o) (v.toInt ≤ u.toInt) ∧ goes (.bltn a b o) (u.toNat < v.toNat) ∧ goes (.bgen a b o) (v.toNat ≤ u.toNat)

/-- R144 in a FEED unit with no loop active: LOOP with a count enters its body, with count 0 it goes on after the body; the three loop
registers of its level are written. Outside a FEED unit it traps FEEDONLY, and on a bad length ILL. R145: the end check of an active body:
the innermost level whose body ends here and has rounds left goes round again, and a level on its last round ends. -/
def Obligations.LoopsEnterAndRepeat : Prop :=
  (∀ (s : State) (l : BitVec 2) (a b : BitVec 5), s.canRun false { x := [a.toNat, b.toNat] } →
     let x := s.cx
     let len := (x.getX b.toNat).toNat
     let last := x.pc + BitVec.ofNat 64 (4 * len)
     (x.feed = false → exec (.loop l a b) s = .next (s.traps 0x0F 0)) ∧
     (x.feed = true → len = 0 ∨ 65536 < len → exec (.loop l a b) s = .next (s.traps 0x01 (x.getX b.toNat))) ∧
     (x.feed = true → 0 < len → len ≤ 65536 → (∀ n < 4, x.lpc.get 0 n = 0) → x.pc.toNat % 4 = 0 →
       ∃ t, exec (.loop l a b) s = .next t ∧
         let y := t.chip.ctx s.chip.cur
         y.lps.get 0 l.toNat = x.pc + 4 ∧ y.lpe.get 0 l.toNat = last ∧
         (x.getX a.toNat ≠ 0 → y.lpc.get 0 l.toNat = x.getX a.toNat ∧ y.pc = x.pc + 4) ∧
         (x.getX a.toNat = 0 → (∀ n < 4, y.lpc.get 0 n = 0) ∧ y.pc = last + 4) ∧
         (∀ n, y.getX n = x.getX n) ∧ t.mem = s.mem)) ∧
  (∀ (x : Ctx) (p : W64), x.noLoops = false →
     (∀ n < 4, x.lpc.get 0 n ≠ 0 → x.lpe.get 0 n = p → (∀ m < 4, n < m → x.lpc.get 0 m ≠ 0 → x.lpe.get 0 m ≠ p) →
       1 < (x.lpc.get 0 n).toNat →
       (x.nextPc p).2 = x.lps.get 0 n ∧ (x.nextPc p).1.lpc.get 0 n = x.lpc.get 0 n - 1) ∧
     ((∀ n < 4, x.lpc.get 0 n ≠ 0 → x.lpe.get 0 n ≠ p) → x.nextPc p = (x, p + 4)) ∧
     (∀ n < 4, x.lpc.get 0 n = 1 → x.lpe.get 0 n = p → (∀ m < 4, m ≠ n → x.lpc.get 0 m = 0) →
       (x.nextPc p).2 = p + 4 ∧ (x.nextPc p).1.lpc.get 0 n = 0))

/-! ### Scalar floating point (08_number_formats.md, 09) -/

/-- R219, R225, R235 to R237: NaN operands give the canonical NaN, with NV exactly when one signals; the invalid operations give it with NV;
a finite nonzero number over zero is an infinity with DZ; minimum and maximum take the other operand of a NaN; an ordered comparison with a
NaN is false with NV, and an equality is false with NV only for a signalling one. R222: a magnitude m·2^e rounded to a multiple of 2^q:
exact where it is one; otherwise a neighbour, the nearer with ties to even for RNE, the smaller magnitude for RTZ, the smaller value for RDN
and the larger for RUP. -/
def Obligations.FloatSpecialCasesAndRounding : Prop :=
  (∀ (t a b rnd : Nat) (sat : Bool), t < 2 →
     let u := unpack t a
     let v := unpack t b
     let nv (f : Bool) : BitVec 6 := if f then 16 else 0
     ((u.isNaN || v.isNaN) = true →
       fpAdd t a b rnd sat = (canonNaN t, nv (u.sig || v.sig)) ∧ fpSub t a b rnd sat = (canonNaN t, nv (u.sig || v.sig)) ∧
       fpMul t a b rnd sat = (canonNaN t, nv (u.sig || v.sig)) ∧ fpDiv t a b rnd sat = (canonNaN t, nv (u.sig || v.sig)) ∧
       (fpMin t a b).2 = nv (u.sig || v.sig) ∧ (fpMax t a b).2 = nv (u.sig || v.sig) ∧
       fpEq t a b = (false, nv (u.sig || v.sig)) ∧ fpLt t a b = (false, 16) ∧ fpLe t a b = (false, 16)) ∧
     (u.isNaN = true ∧ v.isNaN = true → (fpMin t a b).1 = canonNaN t ∧ (fpMax t a b).1 = canonNaN t) ∧
     (u.isNaN = true ∧ v.isNaN = false → (fpMin t a b).1 = b ∧ (fpMax t a b).1 = b) ∧
     (u.isNaN = false ∧ v.isNaN = true → (fpMin t a b).1 = a ∧ (fpMax t a b).1 = a) ∧
     (∀ p, u = .inf p ∧ v = .inf (!p) → fpAdd t a b rnd sat = (canonNaN t, 16)) ∧
     (∀ p, u = .inf p ∧ v = .inf p → fpSub t a b rnd sat = (canonNaN t, 16)) ∧
     (∀ p, u = .inf p ∧ v.isZero = true → fpMul t a b rnd sat = (canonNaN t, 16)) ∧
     (∀ p r, u = .inf p ∧ v = .inf r → fpDiv t a b rnd sat = (canonNaN t, 16)) ∧
     (u.isZero = true ∧ v.isZero = true → fpDiv t a b rnd sat = (canonNaN t, 16)) ∧
     (∀ p m e r n g, u = .num p m e ∧ m ≠ 0 ∧ v = .num r n g ∧ n = 0 → fpDiv t a b rnd sat = (withSign t (p ^^ r) (infBits t), 8)) ∧
     (∀ m e, u = .num true m e ∧ m ≠ 0 → fpSqrt t a rnd sat = (canonNaN t, 16)) ∧
     (∀ p e, u = .num p 0 e → (fpSqrt t a rnd sat).1 = withSign t p 0)) ∧
  (∀ (s : Bool) (m : Nat) (e q : Int) (rnd : Nat), rnd < 4 →
     let r := (roundTo s m e q rnd).1
     let inexact := (roundTo s m e q rnd).2
     let k := (q - e).toNat
     (q ≤ e → r = m * 2 ^ (e - q).toNat ∧ inexact = false) ∧
     (e < q →
       (inexact = true ↔ ¬ 2 ^ k ∣ m) ∧ (2 ^ k ∣ m → r * 2 ^ k = m) ∧ (r = m / 2 ^ k ∨ r = m / 2 ^ k + 1) ∧
       (rnd = 0 → 2 * ((r : Int) * 2 ^ k - m).natAbs ≤ 2 ^ k ∧ (2 * ((r : Int) * 2 ^ k - m).natAbs = 2 ^ k → r % 2 = 0)) ∧
       (rnd = 1 → r * 2 ^ k ≤ m) ∧
       (rnd = 2 → sgnInt s r * 2 ^ k ≤ sgnInt s m) ∧
       (rnd = 3 → sgnInt s m ≤ sgnInt s r * 2 ^ k)))

/-- R227, R234 to R237, R239: a scalar floating-point instruction writes its result and sets its flags, rounding by FPRND without
saturation; it changes nothing else. -/
def Obligations.FloatArithmeticResults : Prop :=
  ∀ (s : State) (d a b : BitVec 5) (t : BitVec 1), s.canRun false { x := [d.toNat, a.toNat, b.toNat] } → s.nextOk →
    let n := t.toNat
    let rnd := s.cx.fprnd.toNat
    let u := ofX n (s.cx.getX a.toNat)
    let v := ofX n (s.cx.getX b.toNat)
    let c := ofX n (s.cx.getX d.toNat)
    let gives (i : Instr) (r : Nat × BitVec 6) : Prop := exec i s = .next (s.retires fun x => (x.setX d.toNat (BitVec.ofNat 64 (r.1 % 2 ^ tyW n))).flag r.2)
    let holds (i : Instr) (r : Bool × BitVec 6) : Prop := exec i s = .next (s.retires fun x => (x.setX d.toNat (if r.1 then 1 else 0)).flag r.2)
    gives (.fadd d a b t) (fpAdd n u v rnd false) ∧
    gives (.fsub d a b t) (fpSub n u v rnd false) ∧
    gives (.fmul d a b t) (fpMul n u v rnd false) ∧
    gives (.fdiv d a b t) (fpDiv n u v rnd false) ∧
    gives (.fsqrt d a t) (fpSqrt n u rnd false) ∧
    gives (.ffma d a b t) (fpFma n u v c rnd false false) ∧
    gives (.ffms d a b t) (fpFma n u v c rnd true false) ∧
    gives (.fmin d a b t) (fpMin n u v) ∧
    gives (.fmax d a b t) (fpMax n u v) ∧
    holds (.fceq d a b t) (fpEq n u v) ∧
    holds (.fclt d a b t) (fpLt n u v) ∧
    holds (.fcle d a b t) (fpLe n u v) ∧
    gives (.fclass d a t) (2 ^ (match unpack n u with
      | .inf neg => if neg then 0 else 7
      | .nan sig => if sig then 8 else 9
      | .num neg m _ => if m = 0 then (if neg then 3 else 4) else if m < 2 ^ fracBits n then (if neg then 2 else 5) else (if neg then 1 else 6)), 0)

/-- R222, R238: FCVT takes its rounding and saturation from a live prefix, and without one rounds by FPRND and does not saturate; a
conversion between integer types keeps a value that fits, wraps without saturation and clamps with SAT with it; out of range a float is
clamped with NV and a NaN gives 0 with NV. The flags of a clamped value follow log 34. -/
def Obligations.FloatConversion : Prop :=
  (∀ (s : State) (d a : BitVec 5) (st dt : BitVec 4), s.canRun true { x := [d.toNat, a.toNat] } → s.nextOk →
    let u := ofX st.toNat (s.cx.getX a.toNat)
    let gives (rnd : Nat) (sat : Bool) : Prop := exec (.fcvt d a st dt) s = .next (s.retires fun x =>
      (x.setX d.toNat (xOf dt.toNat (convert dt.toNat st.toNat u rnd sat).1)).flag (convert dt.toNat st.toNat u rnd sat).2)
    (s.cx.fmt = none → gives s.cx.fprnd.toNat false) ∧
    (∀ p q (r : BitVec 2) (z : Bool), s.cx.fmt = some (encode (.fmt p q r (if z then 1 else 0))) → gives r.toNat z)) ∧
  (∀ (dt st v rnd : Nat) (sat : Bool), tyIsFloat dt = false →
    (tyIsFloat st = false →
      (intMin dt ≤ intVal st v ∧ intVal st v ≤ intMax dt → convert dt st v rnd sat = (intBits dt (intVal st v), 0)) ∧
      (¬(intMin dt ≤ intVal st v ∧ intVal st v ≤ intMax dt) → convert dt st v rnd false = (intBits dt (intVal st v), 0)) ∧
      (intVal st v < intMin dt → convert dt st v rnd true = (intBits dt (intMin dt), 32)) ∧
      (intMax dt < intVal st v → convert dt st v rnd true = (intBits dt (intMax dt), 32))) ∧
    (tyIsFloat st = true →
      ((unpack st v).isNaN = true → convert dt st v rnd sat = (0, 16)) ∧
      (∀ p, unpack st v = .inf p → convert dt st v rnd sat = (intBits dt (if p then intMin dt else intMax dt), 16)) ∧
      (∀ p m e, unpack st v = .num p m e →
        let i := (roundInt p m e rnd).1
        (convert dt st v rnd sat).1 = intBits dt (max (intMin dt) (min i (intMax dt))) ∧
        ((convert dt st v rnd sat).2 &&& 16 = 16 ↔ i < intMin dt ∨ intMax dt < i))))

/-! ### Vectors (10 and 11: R241 to R262) -/

/-- R242 to R247: lane by lane under the mask, with inactive lanes unchanged: integers modulo 2^w, floats rounded by FPRND. -/
def Obligations.VectorArithmeticResults : Prop :=
  ∀ (s : State) (d a b : BitVec 5) (k : BitVec 3) (t : BitVec 4), s.canRun false { v := [d.toNat, a.toNat, b.toNat] } → s.nextOk →
    let n := t.toNat
    let w := tyW n
    let x := s.cx
    let rnd := x.fprnd.toNat
    let u (j : Nat) : Nat := x.ln n a.toNat j
    let v (j : Nat) : Nat := x.ln n b.toNat j
    let c (j : Nat) : Nat := x.ln n d.toNat j
    let gives (i : Instr) (f : Nat → Nat × BitVec 6) : Prop := ∃ (r : VReg) (fl : BitVec 6),
      exec i s = .next (s.retires fun x => (x.setV d.toNat r).flag fl) ∧
      (∀ j < lanes n, lane r w j = if (x.getK k.toNat).getLsbD j then (f j).1 % 2 ^ w else c j) ∧
      (∀ m < 6, fl.getLsbD m = true ↔ ∃ j < lanes n, (x.getK k.toNat).getLsbD j = true ∧ (f j).2.getLsbD m = true)
    let ar (fp : Nat → Nat × BitVec 6) (g : Nat → Int) (j : Nat) : Nat × BitVec 6 := if tyIsFloat n then fp j else ((g j % 2 ^ w).toNat, 0)
    gives (.vadd d a b k t) (ar (fun j => fpAdd n (u j) (v j) rnd false) fun j => u j + v j) ∧
    gives (.vsub d a b k t) (ar (fun j => fpSub n (u j) (v j) rnd false) fun j => u j - v j) ∧
    gives (.vmul d a b k t) (ar (fun j => fpMul n (u j) (v j) rnd false) fun j => u j * v j) ∧
    gives (.vfma d a b k t) (fun j => fpFma n (u j) (v j) (c j) rnd false false) ∧
    gives (.vfms d a b k t) (fun j => fpFma n (u j) (v j) (c j) rnd true false) ∧
    gives (.vmin d a b k t) (fun j => if tyIsFloat n then fpMin n (u j) (v j) else (if intVal n (u j) < intVal n (v j) then u j else v j, 0)) ∧
    gives (.vmax d a b k t) (fun j => if tyIsFloat n then fpMax n (u j) (v j) else (if intVal n (u j) < intVal n (v j) then v j else u j, 0)) ∧
    gives (.vand d a b k t) (fun j => (u j &&& v j, 0)) ∧
    gives (.vor d a b k t) (fun j => (u j ||| v j, 0)) ∧
    gives (.vxor d a b k t) (fun j => (u j ^^^ v j, 0)) ∧
    gives (.vsll d a b k t) (fun j => (u j * 2 ^ (v j % w), 0)) ∧
    gives (.vsrl d a b k t) (fun j => (u j / 2 ^ (v j % w), 0)) ∧
    gives (.vsra d a b k t) (fun j => ((intVal n (u j) / 2 ^ (v j % w) % 2 ^ w).toNat, 0)) ∧
    gives (.vabs d a k t) (fun j =>
      if tyIsFloat n then (if (unpack n (u j)).isNaN then (canonNaN n, if (unpack n (u j)).sig then 16 else 0) else (u j % 2 ^ (w - 1), 0))
      else (((intVal n (u j)).natAbs : Nat), 0)) ∧
    gives (.vneg d a k t) (fun j =>
      if tyIsFloat n then (if (unpack n (u j)).isNaN then (canonNaN n, if (unpack n (u j)).sig then 16 else 0)
        else (if u j < 2 ^ (w - 1) then u j + 2 ^ (w - 1) else u j - 2 ^ (w - 1), 0))
      else ((-intVal n (u j) % 2 ^ w).toNat, 0))

/-- R242, R254: each active lane of an approximation is one rounding of the model's value of the function (log 16), the others are
unchanged, and the flags of the active lanes are set. R255: the approximations of special operands, as exact values: 2^−∞ is 0 and 2^0 is 1;
log2 of a zero is −∞ with DZ, of a negative number invalid; 1 ÷ 0 and 1 ÷ √0 are infinities of its sign with DZ; the reciprocal of an
infinity is a zero of its sign. The value that is rounded is the model's computation of f(u) (log 16). -/
def Obligations.VectorApproximationResults : Prop :=
  (∀ (s : State) (d a : BitVec 5) (k : BitVec 3) (t : BitVec 4), s.canRun false { v := [d.toNat, a.toNat] } → s.nextOk →
     let n := t.toNat
     let x := s.cx
     let u (j : Nat) : FVal := unpack n (x.ln n a.toNat j)
     let gives (i : Instr) (f : FVal → FVal × BitVec 6) : Prop := ∃ (r : VReg) (fl : BitVec 6),
       exec i s = .next (s.retires fun x => (x.setV d.toNat r).flag fl) ∧
       (∀ j < lanes n, lane r (tyW n) j = if (x.getK k.toNat).getLsbD j then (approx n (f (u j))).1 % 2 ^ tyW n else x.ln n d.toNat j) ∧
       (∀ m < 6, fl.getLsbD m = true ↔ ∃ j < lanes n, (x.getK k.toNat).getLsbD j = true ∧ (approx n (f (u j))).2.getLsbD m = true)
     gives (.vexp2 d a k t) exp2Val ∧ gives (.vlog2 d a k t) log2Val ∧ gives (.vrsq d a k t) rsqVal ∧
     gives (.vrcp d a k t) (FVal.div (.num false 1 0))) ∧
  (∀ (p : Bool) (m : Nat) (e : Int), m ≠ 0 →
     exp2Val (.inf true) = (.num false 0 0, 0) ∧ exp2Val (.inf false) = (.inf false, 0) ∧ exp2Val (.num p 0 e) = (.num false 1 0, 0) ∧
     log2Val (.num p 0 e) = (.inf true, 8) ∧ log2Val (.num true m e) = (.nan false, 16) ∧ log2Val (.inf true) = (.nan false, 16) ∧
     (∀ j : Nat, log2Val (.num false (2 ^ j) e) = (.num (decide ((j : Int) + e < 0)) ((j : Int) + e).natAbs 0, 0)) ∧
     FVal.div (.num false 1 0) (.num p 0 e) = (.inf p, 8) ∧ FVal.div (.num false 1 0) (.inf p) = (.num p 0 0, 0) ∧
     rsqVal (.num p 0 e) = (.inf p, 8) ∧ rsqVal (.num true m e) = (.nan false, 16) ∧ rsqVal (.inf false) = (.num false 0 0, 0) ∧
     (∀ sig, (exp2Val (.nan sig)).1 = .nan false ∧ (log2Val (.nan sig)).1 = .nan false ∧ (rsqVal (.nan sig)).1 = .nan false))

/-- R248, R261: a comparison writes all 64 bits of its mask register, clear where the lane is inactive or does not exist; the mask
instructions work on all 64 bits; k0 reads all ones and discards writes. R249, R256, R257: selecting, permuting and moving lanes. -/
def Obligations.MaskAndLaneResults : Prop :=
  (∀ (s : State) (d a b r va vb : BitVec 5) (k : BitVec 3) (t : BitVec 4), s.nextOk →
     let x := s.cx
     let n := t.toNat
     let u (j : Nat) : Nat := x.ln n va.toNat j
     let v (j : Nat) : Nat := x.ln n vb.toNat j
     let mask (i : Instr) (m : W64) : Prop := exec i s = .next (s.retires fun x => x.setK d.toNat m)
     let cmp (i : Instr) (f : Nat → Bool) : Prop := ∃ (m : W64) (fl : BitVec 6), exec i s = .next (s.retires fun x => (x.setK d.toNat m).flag fl) ∧
       ∀ j < 64, m.getLsbD j = (decide (j < lanes n) && (x.getK k.toNat).getLsbD j && f j)
     (s.canRun false {} →
       mask (.kand d a b) (x.getK a.toNat &&& x.getK b.toNat) ∧ mask (.kor d a b) (x.getK a.toNat ||| x.getK b.toNat) ∧
       mask (.knot d a) (~~~x.getK a.toNat) ∧ mask (.kmov d a) (x.getK a.toNat)) ∧
     (s.canRun false { x := [r.toNat] } →
       mask (.kmovFromX d r) (x.getX r.toNat) ∧ exec (.kmovToX r a) s = .next (s.retires fun x => x.setX r.toNat (s.cx.getK a.toNat))) ∧
     (s.canRun false { v := [va.toNat, vb.toNat] } →
       cmp (.vcmpeq d va vb k t) (fun j => if tyIsFloat n then (fpEq n (u j) (v j)).1 else decide (intVal n (u j) = intVal n (v j))) ∧
       cmp (.vcmplt d va vb k t) (fun j => if tyIsFloat n then (fpLt n (u j) (v j)).1 else decide (intVal n (u j) < intVal n (v j))) ∧
       cmp (.vcmple d va vb k t) (fun j => if tyIsFloat n then (fpLe n (u j) (v j)).1 else decide (intVal n (u j) ≤ intVal n (v j))))) ∧
  (∀ (s : State) (d a b r q : BitVec 5) (k : BitVec 3) (t : BitVec 4),
     s.nextOk →
     let n := t.toNat
     let w := tyW n
     let x := s.cx
     let on (j : Nat) : Bool := (x.getK k.toNat).getLsbD j
     let gives (i : Instr) (f : Nat → Nat) : Prop := ∃ y : VReg, exec i s = .next (s.retires fun x => x.setV d.toNat y) ∧ ∀ j < lanes n, lane y w j = f j
     (s.canRun false { v := [d.toNat, a.toNat, b.toNat] } →
     gives (.vsel d a b k t) (fun j => if on j then x.ln n a.toNat j else x.ln n b.toNat j) ∧
     gives (.vperm d a b k t) (fun j => if on j then x.ln n a.toNat (x.ln n b.toNat j % lanes n) else x.ln n d.toNat j) ∧
     gives (.vshuf d a b k t) (fun j => if on j then
       (let p := x.ln n b.toNat j % (2 * lanes n); if p < lanes n then x.ln n a.toNat p else x.ln n d.toNat (p - lanes n)) else x.ln n d.toNat j)) ∧
     (s.canRun false { x := [r.toNat], v := [d.toNat] } →
       gives (.vbcast d r k t) (fun j => if on j then (x.getX r.toNat).toNat % 2 ^ w else x.ln n d.toNat j)) ∧
     (s.canRun false { x := [r.toNat, q.toNat], v := [d.toNat] } →
       gives (.vins d r q t) (fun j => if j = (x.getX q.toNat).toNat % lanes n then (x.getX r.toNat).toNat % 2 ^ w else x.ln n d.toNat j)) ∧
     (s.canRun false { x := [r.toNat, q.toNat], v := [a.toNat] } → exec (.vext r a q t) s = .next (s.retires fun x => x.setX r.toNat
       (let e := s.cx.ln n a.toNat ((s.cx.getX q.toNat).toNat % lanes n)
        if tyIsSInt n ∧ 2 ^ (w - 1) ≤ e then BitVec.ofInt 64 ((e : Int) - 2 ^ w) else BitVec.ofNat 64 e))))

/-- R250: a reduction leaves its value in lane 0 and zeros elsewhere; with integer lanes it is the sum modulo 2^w, or the extreme of the
active lanes, and with no active lane the value that changes no other. R251 to R253: conversions, lane by lane under the mask. A narrowing
leaves the upper lanes zero; VQNT scales 16 FP32 lanes, saturating without a prefix, and VDQNT widens 16 lanes of 8 bits. -/
def Obligations.ReductionsAndConversions : Prop :=
  (∀ (s : State) (d a : BitVec 5) (k : BitVec 3) (t : BitVec 4), s.canRun false { v := [d.toNat, a.toNat] } → s.nextOk →
     let n := t.toNat
     let w := tyW n
     let x := s.cx
     let act := ((List.range (lanes n)).filter fun j => (x.getK k.toNat).getLsbD j).map fun j => x.ln n a.toNat j
     let gives (i : Instr) (P : Nat → Prop) : Prop := ∃ (y : VReg) (fl : BitVec 6), exec i s = .next (s.retires fun x => (x.setV d.toNat y).flag fl) ∧
       (∀ j < lanes n, 0 < j → lane y w j = 0) ∧ P (lane y w 0)
     gives (.vredadd d a k t) (fun r => (tyIsFloat n = false → r = act.sum % 2 ^ w) ∧
       (tyIsFloat n = true → (∃ u ∈ act, (unpack n u).isNaN = true) → r = canonNaN n)) ∧
     gives (.vredmax d a k t) (fun r => tyIsFloat n = false →
       (act = [] → intVal n r = intMin n) ∧ (act ≠ [] → r ∈ act ∧ ∀ u ∈ act, intVal n u ≤ intVal n r)) ∧
     gives (.vredmin d a k t) (fun r => tyIsFloat n = false →
       (act = [] → intVal n r = intMax n) ∧ (act ≠ [] → r ∈ act ∧ ∀ u ∈ act, intVal n r ≤ intVal n u)) ∧
     gives (.vamax d a k t) (fun r => tyIsFloat n = true →
       ((∃ u ∈ act, (unpack n u).isNaN = true) → r = canonNaN n) ∧
       ((∀ u ∈ act, (unpack n u).isNaN = false) → (act = [] → r = 0) ∧ (act ≠ [] → ∃ u ∈ act, r = u % 2 ^ (w - 1)) ∧ ∀ u ∈ act, u % 2 ^ (w - 1) ≤ r))) ∧
  (∀ (s : State) (d a b : BitVec 5) (k : BitVec 3) (st t : BitVec 4), s.canRun true { v := [d.toNat, a.toNat, b.toNat] } → s.nextOk →
     let x := s.cx
     let n := t.toNat
     let on (j : Nat) : Bool := (x.getK k.toNat).getLsbD j
     let rs : Nat × Bool := match x.fmt with | some w => ((w.toNat / 2 ^ 16) % 4, w.getLsbD 14) | none => (x.fprnd.toNat, false)
     let qs : Nat × Bool := if x.fmt = none then (x.fprnd.toNat, true) else rs
     let gives (i : Instr) (w m : Nat) (f : Nat → Nat) : Prop := ∃ (y : VReg) (fl : BitVec 6),
       exec i s = .next (s.retires fun x => (x.setV d.toNat y).flag fl) ∧ ∀ j < m, lane y w j = f j
     gives (.vcvt d a st k t) (tyW n) (lanes n) (fun j =>
       if lanes st.toNat ≤ j then 0
       else if on j then (convert n st.toNat (x.ln st.toNat a.toNat j) rs.1 rs.2).1 % 2 ^ tyW n else x.ln n d.toNat j) ∧
     (tyW n = 8 → gives (.vqnt d a b k t) 8 64 (fun j =>
       if 16 ≤ j then 0
       else if on j then (convVal n (FVal.mul (unpack 0 (x.ln 0 a.toNat j)) (unpack 0 (x.ln 0 b.toNat j))).1 qs.1 qs.2).1 % 256 else x.ln n d.toNat j)) ∧
     gives (.vdqnt d a b k t) 32 16 (fun j =>
       if on j then
         (let u := lane (x.getV a.toNat) 8 j
          let p := if n = 6 then FVal.num (decide (128 ≤ u)) (if 128 ≤ u then 256 - u else u) 0 else unpack n u
          (pack 0 (FVal.mul p (unpack 0 (x.ln 0 b.toNat j))).1 rs.1 rs.2).1 % 2 ^ 32)
       else x.ln 0 d.toNat j))

/-! ### Memory (06_memory.md) -/

/-- R156, R157, R159: the checks at issue, in their order: an address that names no space traps PERM, a misaligned one MISALN, and a
scratchpad address outside every window LPROT; an aligned global address passes. R159, R374: a load or store that fails its checks traps
precisely, with its address in TVAL, and has no effect. The frame is that of a precise trap. -/
def Obligations.AccessChecksTrap : Prop :=
  (∀ (c : Chip) (xk : Nat) (a : W64) (n al : Nat), 0 < al → 0 < n → al ∣ n → n ≤ 64 →
     (2 ^ 52 ≤ a.toNat ∨ space a = 0 ∨ space a = 3 → c.check xk a n al = some 0x09) ∧
     (a.toNat < 2 ^ 52 → space a = 2 ∨ space a = 1 → ¬ al ∣ a.toNat → c.check xk a n al = some 0x05) ∧
     (a.toNat < 2 ^ 52 → space a = 2 → n = al → n ∈ [1, 2, 4, 8] → al ∣ a.toNat → c.check xk a n al = none) ∧
     (a.toNat < 2 ^ 52 → space a = 1 → n = al → n ∈ [1, 2, 4, 8] → al ∣ a.toNat →
       (bits a.toNat 18 19 ≠ 0 ∨ 191 < bits a.toNat 37 8 ∨ c.spSize (bits a.toNat 47 3 * 768 + bits a.toNat 45 2 * 192 + bits a.toNat 37 8) < bits a.toNat 0 18 + n) →
       c.check xk a n al = some 0x06)) ∧
  (∀ (s : State) (d a b : BitVec 5) (o : BitVec 13) (code : Nat),
     let ea := s.cx.getX a.toNat + o.signExtend 64
     let traps (i : Instr) (n : Nat) : Prop := s.at_.check s.chip.cur ea n n = some code → exec i s = .next (s.traps code ea)
     (s.canRun false { x := [d.toNat, a.toNat], mem := true, ctr := .ld } →
       traps (.lb d a o) 1 ∧ traps (.lbn d a o) 1 ∧ traps (.lh d a o) 2 ∧ traps (.lhn d a o) 2 ∧ traps (.lw d a o) 4 ∧ traps (.lwn d a o) 4 ∧ traps (.ld d a o) 8) ∧
     (s.canRun false { x := [d.toNat, a.toNat], mem := true, ctr := .st } →
       traps (.sb d a o) 1 ∧ traps (.sh d a o) 2 ∧ traps (.sw d a o) 4 ∧ traps (.sd d a o) 8) ∧
     (s.canRun false { x := [d.toNat, a.toNat, b.toNat], mem := true, ctr := .st } → s.at_.check s.chip.cur (s.cx.getX a.toNat) 8 8 = some code →
       exec (.stv d a b) s = .next (s.traps code (s.cx.getX a.toNat))))

/-- R182: a load from full lines of the own window whose data hold no uncorrectable error (log 86) reads little-endian bytes, sign- or
zero-extended into xd, and changes nothing else. R183, R185: a store to the own window writes the low bytes of its register there, and no
other byte of memory, no register and no other context changes; STV also writes the time of its visibility into xd. Memory is in its
canonical form where a statement reads it after a write. -/
def Obligations.OwnWindowAccesses : Prop :=
  (∀ (s : State) (d a : BitVec 5) (o : BitVec 13) (off : Nat), s.canRun false { x := [d.toNat, a.toNat], mem := true, ctr := .ld } → s.nextOk →
     let ea := s.cx.getX a.toNat + o.signExtend 64
     let loads (i : Instr) (n : Nat) (signed : Bool) : Prop :=
       let v := leNat ((List.range n).map fun j => s.spByte (off + j))
       s.ownAccess ea n n off → (s.chip.core s.ck).fullOver off n = true → s.chip.badAt (sram s.ck off) n = false →
         exec i s = .next (s.retires fun x => x.setX d.toNat (if signed ∧ 2 ^ (8 * n - 1) ≤ v then BitVec.ofInt 64 ((v : Int) - 2 ^ (8 * n)) else BitVec.ofNat 64 v))
     loads (.lb d a o) 1 true ∧ loads (.lbn d a o) 1 false ∧ loads (.lh d a o) 2 true ∧ loads (.lhn d a o) 2 false ∧
     loads (.lw d a o) 4 true ∧ loads (.lwn d a o) 4 false ∧ loads (.ld d a o) 8 false) ∧
  (∀ (s : State) (d a b : BitVec 5) (o : BitVec 13) (off : Nat), s.mem.wf = true → s.nextOk → s.cx.unsealed = false →
     let stores (i : Instr) (ea v : W64) (n : Nat) (regs : Ctx → Prop) : Prop :=
       s.ownAccess ea n n off → ∃ t, exec i s = .next t ∧
         (∀ j < n, t.mem.read (sram s.ck off + j) = BitVec.ofNat 8 (v.toNat / 256 ^ j)) ∧
         (∀ p, p < sram s.ck off ∨ sram s.ck off + n ≤ p → t.mem.read p = s.mem.read p) ∧
         (∀ k, k ≠ s.chip.cur → t.chip.ctx k = s.chip.ctx k) ∧ (s.after t).pc = (s.cx.nextPc s.cx.pc).2 ∧ regs (s.after t)
     (s.canRun false { x := [b.toNat, a.toNat], mem := true, ctr := .st } →
       let ea := s.cx.getX a.toNat + o.signExtend 64
       let v := s.cx.getX b.toNat
       stores (.sb b a o) ea v 1 s.cx.sameRegs ∧ stores (.sh b a o) ea v 2 s.cx.sameRegs ∧
       stores (.sw b a o) ea v 4 s.cx.sameRegs ∧ stores (.sd b a o) ea v 8 s.cx.sameRegs) ∧
     (s.canRun false { x := [d.toNat, a.toNat, b.toNat], mem := true, ctr := .st } →
       stores (.stv d a b) (s.cx.getX a.toNat) (s.cx.getX b.toNat) 8 (s.cx.setX d.toNat (BitVec.ofNat 64 s.now)).sameRegs))

/-- R149, R163, R182, R183: a load or store of global memory that the core's L1 does not serve leaves as one request to the home that
translates its address; it retires with its counter raised by one, the register of a load locked, and memory untouched. The form of a
request is the model's own, and accesses to one place are held as log 31 says. -/
def Obligations.GlobalAccessesLeaveTheCore : Prop :=
  ∀ (s : State) (d a : BitVec 5) (o : BitVec 13), s.nextOk → s.cx.unsealed = false →
    let ea := s.cx.getX a.toNat + o.signExtend 64
    let leaves (i : Instr) (n : Nat) (ctr : Ctr) (act : Act) (data : List Byte) (lock : Prop → Prop) : Prop :=
      ∃ t q, exec i s = .next t ∧ q.src = s.chip.cur ∧ q.vi = s.cx.vi ∧ q.va = ea ∧ q.n = n ∧ q.act = act ∧ q.data = data ∧
        t.chip.net = s.chip.net ++ [⟨coreNode s.ck, transNode ea, .req, 0, .translate q⟩] ∧ s.keepsRest t ∧
        s.cx.sameRegs (s.after t) ∧ (s.after t).pc = (s.cx.nextPc s.cx.pc).2 ∧ (s.after t).cnt ctr = s.cx.cnt ctr + 1 ∧
        lock (d.toNat ≠ 0 → (s.after t).lockedX d.toNat = true)
    let loads (i : Instr) (n : Nat) : Prop :=
      s.canRun false { x := [d.toNat, a.toNat], mem := true, ctr := .ld } → s.globalAccess ea n n →
      (s.chip.core s.ck).l1Find s.chip.cur s.cx.vi s.now ea = none → leaves i n .ld .load [] id
    let stores (i : Instr) (n : Nat) : Prop :=
      s.canRun false { x := [d.toNat, a.toNat], mem := true, ctr := .st } → s.globalAccess ea n n →
      (∀ m ∈ (s.chip.core s.ck).l1, m.vi = s.cx.vi → m.va = lineOf ea → ∀ z, m.kind ≠ .owned z) →
      ∃ t q, exec i s = .next t ∧ q.src = s.chip.cur ∧ q.vi = s.cx.vi ∧ q.va = ea ∧ q.n = n ∧ q.act = .store ∧
        q.data = (List.range n).map (fun j => BitVec.ofNat 8 ((s.cx.getX d.toNat).toNat / 256 ^ j)) ∧
        t.chip.net = s.chip.net ++ [⟨coreNode s.ck, transNode ea, .wrb, 0, .translate q⟩] ∧ s.keepsRest t ∧
        s.cx.sameRegs (s.after t) ∧ (s.after t).pc = (s.cx.nextPc s.cx.pc).2 ∧ (s.after t).cnt .st = s.cx.cnt .st + 1
    loads (.lb d a o) 1 ∧ loads (.lbn d a o) 1 ∧ loads (.lh d a o) 2 ∧ loads (.lhn d a o) 2 ∧ loads (.lw d a o) 4 ∧ loads (.lwn d a o) 4 ∧
    loads (.ld d a o) 8 ∧ stores (.sb d a o) 1 ∧ stores (.sh d a o) 2 ∧ stores (.sw d a o) 4 ∧ stores (.sd d a o) 8

/-- R242, R258, R259: a vector load from the own window reads each active lane at its own address and leaves the others. R258 to R260: a
vector store to the own window writes each active lane at its own address, a later lane over an earlier one, and no other byte of memory.
Lanes travel as log 30 says; memory is in its canonical form, and the data hold no uncorrectable error (log 86). -/
def Obligations.VectorLoadsAndStores : Prop :=
  (∀ (s : State) (d a b : BitVec 5) (k : BitVec 3) (t : BitVec 4) (off : Nat → Nat), s.nextOk →
     let n := t.toNat
     let w := tyW n
     let z := w / 8
     let x := s.cx
     let loads (i : Instr) (f : Nat → W64) : Prop :=
       (∀ j < lanes n, (x.getK k.toNat).getLsbD j = true → s.ownAccess (f j) z z (off j) ∧ (s.chip.core s.ck).fullOver (off j) z = true ∧
         s.chip.badAt (sram s.ck (off j)) z = false) →
       ∃ r : VReg, exec i s = .next (s.retires fun x => x.setV d.toNat r) ∧
         ∀ j < lanes n, lane r w j = if (x.getK k.toNat).getLsbD j then leNat ((List.range z).map fun m => s.spByte (off j + m)) else x.ln n d.toNat j
     (s.canRun false { x := [a.toNat], v := [d.toNat], mem := true, ctr := .ld } →
       loads (.vld d a k t) (fun j => x.getX a.toNat + BitVec.ofNat 64 (j * z))) ∧
     (s.canRun false { x := [a.toNat, b.toNat], v := [d.toNat], mem := true, ctr := .ld } →
       loads (.vlds d a b k t) (fun j => x.getX a.toNat + BitVec.ofNat 64 j * x.getX b.toNat)) ∧
     (s.canRun false { x := [a.toNat], v := [d.toNat, b.toNat], mem := true, ctr := .ld } →
       loads (.vgth d a b k t) (fun j => x.getX a.toNat + (BitVec.ofNat w (x.ln n b.toNat j)).signExtend 64 * BitVec.ofNat 64 z))) ∧
  (∀ (s : State) (d a b : BitVec 5) (k : BitVec 3) (t : BitVec 4) (off : Nat → Nat), s.mem.wf = true → s.nextOk → s.cx.unsealed = false →
     let n := t.toNat
     let w := tyW n
     let z := w / 8
     let x := s.cx
     let on (j : Nat) : Prop := j < lanes n ∧ (x.getK k.toNat).getLsbD j = true
     let stores (i : Instr) (f : Nat → W64) : Prop :=
       (∀ j, on j → s.ownAccess (f j) z z (off j)) →
       ∃ t, exec i s = .next t ∧
         (∀ j, on j → (∀ j', j < j' → on j' → off j' + z ≤ off j ∨ off j + z ≤ off j') →
           ∀ m < z, t.mem.read (sram s.ck (off j) + m) = BitVec.ofNat 8 (x.ln n d.toNat j / 256 ^ m)) ∧
         (∀ p, (∀ j, on j → p < sram s.ck (off j) ∨ sram s.ck (off j) + z ≤ p) → t.mem.read p = s.mem.read p) ∧
         (∀ k, k ≠ s.chip.cur → t.chip.ctx k = s.chip.ctx k) ∧ x.sameRegs (s.after t) ∧ (s.after t).pc = (x.nextPc x.pc).2
     (s.canRun false { x := [a.toNat], v := [d.toNat], mem := true, ctr := .st } →
       stores (.vst d a k t) (fun j => x.getX a.toNat + BitVec.ofNat 64 (j * z))) ∧
     (s.canRun false { x := [a.toNat, b.toNat], v := [d.toNat], mem := true, ctr := .st } →
       stores (.vsts d a b k t) (fun j => x.getX a.toNat + BitVec.ofNat 64 j * x.getX b.toNat)) ∧
     (s.canRun false { x := [a.toNat], v := [d.toNat, b.toNat], mem := true, ctr := .st } →
       stores (.vsct d a b k t) (fun j => x.getX a.toNat + (BitVec.ofNat w (x.ln n b.toNat j)).signExtend 64 * BitVec.ofNat 64 z)))

/-- R186: PREF only asks for a line that the L1 lacks; L1WB and L1INV retire at once where the line is not dirty, and L1INV then leaves no
unlocked copy of it; a dirty line is sent to its home, they wait for the acknowledgement, and retire with it. R178, R179, R187 to R190 for
a buffer of the own core: HNEW makes one in the run, or gives 0 where no entry is free, and traps LPROT where the range does not lie in the
run or meets a buffer; HGIVE hands a buffer on under its next generation and sweeps the old handle from the registers, HREV frees it, and
HCHK tells whether a handle is current; a stale or malformed handle, or one of another holder, traps HSTALE in HGIVE and HREV. For a buffer
of another core the request leaves and the context waits, and with its answer the instruction retires, or traps. -/
def Obligations.LineMaintenanceAndHandles : Prop :=
  (∀ (s : State) (a : BitVec 5), s.canRun false { x := [a.toNat], mem := true } → s.nextOk →
     let ad := s.cx.getX a.toNat
     let k := s.chip.core s.ck
     let mine (l : L1Line) : Bool := l.vi == s.cx.vi && l.va == lineOf ad
     let dirty := k.l1.find? fun l => mine l && l.kind == .owned true
     (isGlobal ad = false ∨ (k.l1Find s.chip.cur s.cx.vi s.now ad).isSome = true → exec (.pref a) s = .next (s.retires id)) ∧
     (isGlobal ad = true → k.l1Find s.chip.cur s.cx.vi s.now ad = none →
       ∃ t q, exec (.pref a) s = .next t ∧ q.act = .pref ∧ q.va = lineOf ad ∧ s.keepsRest t ∧ s.cx.sameRegs (s.after t) ∧
         t.chip.net = s.chip.net ++ [⟨coreNode s.ck, transNode (lineOf ad), .req, 0, .translate q⟩] ∧ (s.after t).pc = (s.cx.nextPc s.cx.pc).2) ∧
     (s.cx.pend.kind ≠ .line → isGlobal ad = false → exec (.l1wb a) s = .next (s.retires id) ∧ exec (.l1inv a) s = .next (s.retires id)) ∧
     (s.cx.pend.kind ≠ .line → isGlobal ad = true → dirty = none →
       (∃ t, exec (.l1wb a) s = .next t ∧ s.keepsRest t ∧ s.cx.sameRegs (s.after t) ∧ (s.after t).pc = (s.cx.nextPc s.cx.pc).2 ∧ (t.chip.core s.ck).l1 = k.l1) ∧
       (∃ t, exec (.l1inv a) s = .next t ∧ s.keepsRest t ∧ s.cx.sameRegs (s.after t) ∧ (s.after t).pc = (s.cx.nextPc s.cx.pc).2 ∧
         ∀ l ∈ (t.chip.core s.ck).l1, l ∈ k.l1 ∧ (mine l = true → ∃ y, l.kind = .locked y))) ∧
     (∀ l, s.cx.pend.kind ≠ .line → isGlobal ad = true → dirty = some l → ∀ i, i = .l1wb a ∨ i = .l1inv a →
       ∃ t w, exec i s = .next t ∧ (⟨coreNode s.ck, l.home, .wrb, 0, .writeBack w⟩ : Flight) ∈ t.chip.net ∧ w.data = l.data ∧ w.pa = l.pa ∧
         t.mem = s.mem ∧ (s.after t).st = .stall ∧ (s.after t).wait = .answer ∧ (s.after t).pc = s.cx.pc) ∧
     (∀ r, s.cx.pend.kind = .line → s.cx.pend.ans = some r → exec (.l1wb a) s = .next (s.retires id) ∧ exec (.l1inv a) s = .next (s.retires id))) ∧
  (∀ (s : State) (d a b : BitVec 5), s.nextOk →
     let x := s.cx
     let h := x.getX a.toNat
     let v := x.getX b.toNat
     let k := s.chip.core s.ck
     let swept (t : State) : Prop := ∀ n, n ≠ 0 → n < 32 → n ≠ d.toNat → (s.after t).getX n = if x.getX n = h then 0 else x.getX n
     let inUse (off : Nat) : Prop := ∃ p ∈ k.bufs, p.2.valid = true ∧ meets off (off + v.toNat) p.2.base (p.2.base + p.2.len) = true
     let asks (i : Instr) (act : Act) : Prop := ∀ ck j g, handleParse h = some (ck, j, g) → ck ≠ s.ck → x.pend.kind ≠ .handle →
       ∃ t q, exec i s = .next t ∧ q.act = act ∧ q.src = s.chip.cur ∧ q.data = leBytes 8 h.toNat ∧ s.keepsRest t ∧ x.sameRegs (s.after t) ∧
         (s.after t).pc = x.pc ∧ (s.after t).st = .stall ∧ t.chip.net = s.chip.net ++ [⟨coreNode s.ck, coreNode ck, .req, 0, .handleUpdate q⟩]
     let refuses (i : Instr) : Prop := ∀ code u, x.pend.kind = .handle → x.pend.ans = some (.refused code u) → x.hasRefused = false →
       exec i s = .next (s.traps code h)
     let stale (own : Buf → Prop) : Prop := x.pend.kind ≠ .handle ∧ (handleParse h = none ∨ ∃ p, handleParse h = some p ∧ p.1 = s.ck) ∧
       ∀ p, s.chip.current h = some p → ¬own p.2.2 ∨ p.2.2.suspended = true
     (s.canRun false { x := [d.toNat, a.toNat, b.toNat] } →
       (∀ off, s.at_.ownOff s.chip.cur h 1 = some off → off % 128 ≠ 0 ∨ v.toNat = 0 ∨ v.toNat % 128 ≠ 0 ∨ x.ownsRun off (off + v.toNat) = false ∨ inUse off →
         exec (.hnew d a b) s = .next (s.traps 0x06 h)) ∧
       (s.at_.ownOff s.chip.cur h 1 = none → exec (.hnew d a b) s = .next (s.traps 0x06 h)) ∧
       (∀ off, s.at_.ownOff s.chip.cur h 1 = some off → off % 128 = 0 → v.toNat ≠ 0 → v.toNat % 128 = 0 → x.ownsRun off (off + v.toNat) = true →
         ¬inUse off → (∀ j < 64, (k.bufs.get ({} : Buf) j).valid = true) → exec (.hnew d a b) s = .next (s.retires fun x => x.setX d.toNat 0)) ∧
       (2 ^ 16 ≤ v.toNat → exec (.hgive d a b) s = .next (s.traps 0x01 v)) ∧
       (v.toNat < 2 ^ 16 → x.cnt .st = 0 → stale (·.holder = s.chip.cur) → exec (.hgive d a b) s = .next (s.traps 0x07 h)) ∧
       (v.toNat < 2 ^ 16 → x.cnt .st = 0 → asks (.hgive d a b) (.hgive (holderOf v))) ∧ (v.toNat < 2 ^ 16 → refuses (.hgive d a b)) ∧
       (∀ r u, v.toNat < 2 ^ 16 → x.pend.kind = .handle → x.pend.ans = some (.value r u) →
         ∃ t, exec (.hgive d a b) s = .next t ∧ s.keepsRest t ∧ (d.toNat ≠ 0 → (s.after t).getX d.toNat = r) ∧ swept t) ∧
       (∀ off i, s.at_.ownOff s.chip.cur h 1 = some off → off % 128 = 0 → v.toNat ≠ 0 → v.toNat % 128 = 0 → x.ownsRun off (off + v.toNat) = true →
         ¬inUse off → i < 64 → (k.bufs.get ({} : Buf) i).valid = false → (∀ j < i, (k.bufs.get ({} : Buf) j).valid = true) →
         ∃ t, exec (.hnew d a b) s = .next t ∧ s.keepsRest t ∧
           (d.toNat ≠ 0 → (s.after t).getX d.toNat = handleOf s.ck i (nextGen (k.bufs.get ({} : Buf) i).gen)) ∧
           (t.chip.core s.ck).bufs.get ({} : Buf) i =
             { valid := true, gen := nextGen (k.bufs.get ({} : Buf) i).gen, base := off, len := v.toNat, vi := x.vi, creator := s.chip.cur, holder := s.chip.cur } ∧
           ∀ j, j ≠ i → (t.chip.core s.ck).bufs.get ({} : Buf) j = k.bufs.get ({} : Buf) j) ∧
       (∀ i y, v.toNat < 2 ^ 16 → x.cnt .st = 0 → x.pend.kind ≠ .handle → s.chip.current h = some (s.ck, i, y) → y.holder = s.chip.cur → y.suspended = false →
         ∃ t, exec (.hgive d a b) s = .next t ∧ s.keepsRest t ∧ (d.toNat ≠ 0 → (s.after t).getX d.toNat = handleOf s.ck i (nextGen y.gen)) ∧ swept t ∧
           (t.chip.core s.ck).bufs.get ({} : Buf) i = { y with gen := nextGen y.gen, holder := holderOf v })) ∧
     (s.canRun false { x := [a.toNat] } → ∀ i y, x.cnt .st = 0 → x.pend.kind ≠ .handle → s.chip.current h = some (s.ck, i, y) →
       y.holder = s.chip.cur ∨ y.creator = s.chip.cur → y.suspended = false →
       ∃ t, exec (.hrev a) s = .next t ∧ s.keepsRest t ∧ x.sameRegs (s.after t) ∧
         (t.chip.core s.ck).bufs.get ({} : Buf) i = { y with gen := nextGen y.gen, valid := false }) ∧
     (s.canRun false { x := [a.toNat] } →
       (x.cnt .st = 0 → asks (.hrev a) .hrev) ∧ refuses (.hrev a) ∧
       (x.cnt .st = 0 → stale (fun y => y.holder = s.chip.cur ∨ y.creator = s.chip.cur) → exec (.hrev a) s = .next (s.traps 0x07 h)) ∧
       ∀ r u, x.pend.kind = .handle → x.pend.ans = some (.value r u) → exec (.hrev a) s = .next (s.retires id)) ∧
     (s.canRun false { x := [d.toNat, a.toNat] } → asks (.hchk d a) .hchk ∧ refuses (.hchk d a) ∧
       ∀ r u, x.pend.kind = .handle → x.pend.ans = some (.value r u) → exec (.hchk d a) s = .next (s.retires fun x => x.setX d.toNat r)) ∧
     (s.canRun false { x := [d.toNat, a.toNat] } → x.pend.kind ≠ .handle →
       (∀ ck i g, handleParse h = some (ck, i, g) → ck = s.ck →
         exec (.hchk d a) s = .next (s.retires fun x => x.setX d.toNat (match s.chip.current h with
           | some (_, _, y) => if y.holder = s.chip.cur then BitVec.ofNat 64 (y.len * 2 ^ 32) else 1
           | none => 2))) ∧
       (handleParse h = none → exec (.hchk d a) s = .next (s.retires fun x => x.setX d.toNat 2))))

/-! ### The copy engine and full/empty lines (07_copy_engine.md) -/

/-- R199, R212, R213: a legal CPGO queues a copy with a snapshot of the copy registers and the stores it must wait for, and returns its id;
an illegal one traps; CPSTAT reads the state of a copy of its context, and 0 for any other id; CPKILL of a copy whose completion word has
not been sent stops it with status KILLED, and otherwise does nothing. R209, R214 to R216: MKFULL and MKEMPTY set the lines of their
own-window range and no others, FESTAT reports 64 lines of the own window; a misaligned range traps MISALN; WADDR asks for its word and
waits, and once the answer has come retires. For the window of another core MKFULL, MKEMPTY and FESTAT ask its core and wait, and with the
answer retire. CPKILL follows log 17, WADDR log 18. -/
def Obligations.CopyAndLineStateInstructions : Prop :=
  (∀ (s : State) (d a : BitVec 5), s.nextOk →
     let x := s.cx
     let k := s.chip.core s.ck
     let cid := (x.getX a.toNat).toNat % 65536
     (s.canRun false { x := [d.toNat], mem := true, ctr := .cp } → (s.at_.liveCopies s.ck).length < 32 → s.at_.goCheck s.chip.cur x.cp = none → x.lostCopy x.cp = none →
       (s.at_.copySeals s.chip.cur x.cp = true → x.unsealed = false) →
       ∃ t e, exec (.cpgo d) s = .next t ∧ (t.chip.core s.ck).copies = k.copies ++ [e] ∧ e.r = x.cp ∧ e.ctx = s.chip.cur ∧ e.running = false ∧
         e.id = s.chip.cur % 8 * 8192 + x.cpSeq ∧ e.after = (x.ops ++ x.replay).filterMap (fun o => if o.ctr = .st then some o.id else none) ∧
         (d.toNat ≠ 0 → (s.after t).getX d.toNat = BitVec.ofNat 64 e.id) ∧ (∀ n, n ≠ d.toNat → (s.after t).getX n = x.getX n) ∧
         (s.after t).cnt .cp = x.cnt .cp + 1 ∧ s.keepsRest t ∧ (s.after t).pc = (x.nextPc x.pc).2) ∧
     (s.canRun false { x := [d.toNat], mem := true, ctr := .cp } → (s.at_.liveCopies s.ck).length < 32 →
       ∀ code v, s.at_.goCheck s.chip.cur x.cp = some (code, v) → exec (.cpgo d) s = .next (s.traps code v)) ∧
     (s.canRun false { x := [d.toNat, a.toNat] } →
       (∀ c, cid / 8192 = s.chip.cur % 8 → x.cpStat.find? (·.id == cid) = some c → exec (.cpstat a d) s = .next (s.retires fun x => x.setX d.toNat
         (BitVec.ofNat 64 (if c.state = 3 then c.clipped * 65536 + c.status * 256 + 3 else c.state)))) ∧
       (cid / 8192 ≠ s.chip.cur % 8 ∨ x.cpStat.find? (·.id == cid) = none → exec (.cpstat a d) s = .next (s.retires fun x => x.setX d.toNat 0))) ∧
     (s.canRun false { x := [a.toNat] } →
       (∀ e ∈ k.copies, e.ctx = s.chip.cur → e.id = cid → e.word = false → (∀ f ∈ k.copies, f.op = e.op → f = e) →
         (∀ f ∈ k.copies, f.ctx = s.chip.cur → f.id = cid → f.word = false → f = e) → e.touched = [] →
         ∃ t, exec (.cpkill a) s = .next t ∧ s.keepsRest t ∧ x.sameRegs (s.after t) ∧
           ∃ f ∈ (t.chip.core s.ck).copies, f.op = e.op ∧ f.running = true ∧ f.moved = true ∧ f.status = 1) ∧
       ((∀ e ∈ k.copies, ¬(e.ctx = s.chip.cur ∧ e.id = cid ∧ e.word = false)) → exec (.cpkill a) s = .next (s.retires id)))) ∧
  (∀ (s : State) (d a b : BitVec 5), s.nextOk →
     let x := s.cx
     let ad := x.getX a.toNat
     let n := (x.getX b.toNat).toNat
     let k := s.chip.core s.ck
     let out (l off : Nat) : Prop := l * 128 + 128 ≤ off ∨ off + n ≤ l * 128
     (∀ off, s.canRun false { x := [a.toNat, b.toNat], mem := true } → permOk ad = true → space ad = 1 → ad.toNat % 128 = 0 → n % 128 = 0 → n ≠ 0 →
       s.at_.spParse ad n = some (s.ck, off) → s.at_.protect s.chip.cur off n = none →
       (x.cnt .st = 0 → ∃ t, exec (.mkfull a b) s = .next t ∧ s.keepsRest t ∧ x.sameRegs (s.after t) ∧ (s.after t).pc = (x.nextPc x.pc).2 ∧
         ∀ l, l ∈ (t.chip.core s.ck).empty ↔ l ∈ k.empty ∧ out l off) ∧
       (∃ t, exec (.mkempty a b) s = .next t ∧ s.keepsRest t ∧ x.sameRegs (s.after t) ∧ (s.after t).pc = (x.nextPc x.pc).2 ∧
         ∀ l, l ∈ (t.chip.core s.ck).empty ↔ (l ∈ k.empty ∧ out l off) ∨ (off / 128 ≤ l ∧ l < off / 128 + n / 128))) ∧
     (s.canRun false { x := [a.toNat, b.toNat], mem := true } → permOk ad = true → space ad = 1 → ad.toNat % 128 ≠ 0 ∨ n % 128 ≠ 0 →
       exec (.mkfull a b) s = .next (s.traps 0x05 ad) ∧ exec (.mkempty a b) s = .next (s.traps 0x05 ad)) ∧
     (∀ off, s.canRun false { x := [d.toNat, a.toNat], mem := true } → permOk ad = true → space ad = 1 → s.at_.spParse ad 1 = some (s.ck, off) →
       ∃ r : W64, exec (.festat a d) s = .next (s.retires fun x => x.setX d.toNat r) ∧
         ∀ j < 64, r.getLsbD j = true ↔ (off / 128 + j) * 128 + 128 ≤ s.chip.spSize s.ck ∧ s.at_.protect s.chip.cur ((off / 128 + j) * 128) 128 = none ∧
           off / 128 + j ∉ k.empty) ∧
     (∀ ck off act i, (i = .mkfull a b ∧ act = .mkfull n ∧ x.cnt .st = 0 ∨ i = .mkempty a b ∧ act = .mkempty n) → s.canRun false { x := [a.toNat, b.toNat], mem := true } →
       permOk ad = true → space ad = 1 → ad.toNat % 128 = 0 → n % 128 = 0 → n ≠ 0 → s.at_.spParse ad n = some (ck, off) → ck ≠ s.ck →
       (x.pend.kind ≠ .line → ∃ t q, exec i s = .next t ∧ q.act = act ∧ q.va = ad ∧ s.keepsRest t ∧ x.sameRegs (s.after t) ∧ (s.after t).pc = x.pc ∧
         (s.after t).st = .stall ∧ t.chip.net = s.chip.net ++ [⟨coreNode s.ck, coreNode ck, .wrb, 0, .storeRequest q⟩]) ∧
       (∀ r u, x.pend.kind = .line → x.pend.ans = some (.value r u) → exec i s = .next (s.retires id))) ∧
     (∀ ck off, s.canRun false { x := [d.toNat, a.toNat], mem := true } → permOk ad = true → space ad = 1 → s.at_.spParse ad 1 = some (ck, off) → ck ≠ s.ck →
       (x.pend.kind ≠ .festat → ∃ t q, exec (.festat a d) s = .next t ∧ q.act = .festat ∧ q.va = ad ∧ s.keepsRest t ∧ x.sameRegs (s.after t) ∧
         (s.after t).pc = x.pc ∧ (s.after t).st = .stall ∧ t.chip.net = s.chip.net ++ [⟨coreNode s.ck, coreNode ck, .req, 0, .loadRequest q⟩]) ∧
       (∀ r u, x.pend.kind = .festat → x.pend.ans = some (.value r u) → exec (.festat a d) s = .next (s.retires fun x => x.setX d.toNat r))) ∧
     (∀ v u, s.canRun false { x := [a.toNat, b.toNat], mem := true } → x.pend.kind = .waddr → x.pend.ans = some (.value v u) →
       exec (.waddr a b) s = .next (s.retires id)) ∧
     (s.canRun false { x := [a.toNat, b.toNat], mem := true } → x.pend.kind ≠ .waddr → isGlobal ad = true → ad.toNat % 8 = 0 → x.lostOver ad 8 = none →
       ∃ t q, exec (.waddr a b) s = .next t ∧ q.act = .waddr (x.getX b.toNat) ∧ q.va = ad ∧ s.keepsRest t ∧ (s.after t).pc = x.pc ∧
         (s.after t).st = .stall ∧ t.chip.net = s.chip.net ++ [⟨coreNode s.ck, transNode ad, .req, 0, .translate q⟩]))

/-! ### Ordering and atomics (12_ordering_atomics.md) -/

/-- R294, R308: a FENCE whose conditions hold retires: a release keeps everything, an acquire at PKG or wider leaves no leased line in the
L1, and drops no other line. R106: an acquire ends what fetch has kept of words that a party of its scope has changed, visibly by now (of
the changes that a party has made the earliest, log 7), and nothing else. A release waits while a load, store or copy is out, and at ROW or
wider until GTIME reaches VISMAX; an acquire waits while a load is out. -/
def Obligations.FenceResults : Prop :=
  ∀ (s : State) (sc : BitVec 4) (k : BitVec 2), s.canRun false {} → s.nextOk →
    let x := s.cx
    let rel := k = 2 ∨ k = 3
    let acq := k = 1 ∨ k = 3
    let l1 := (s.chip.core s.ck).l1
    (rel → x.cnt .ld ≠ 0 ∨ x.cnt .st ≠ 0 ∨ x.cnt .cp ≠ 0 → exec (.fence sc k) s = .next (s.waits (.ctrs 0 0 0 63 63))) ∧
    (rel → x.cnt .ld = 0 ∧ x.cnt .st = 0 ∧ x.cnt .cp = 0 → 3 ≤ sc.toNat → s.now < x.vismax → exec (.fence sc k) s = .next (s.waits (.time x.vismax))) ∧
    (k = 1 → x.cnt .ld ≠ 0 → exec (.fence sc k) s = .next (s.waits (.ctrs 0 63 63 63 63))) ∧
    (k = 2 → x.cnt .ld = 0 ∧ x.cnt .st = 0 ∧ x.cnt .cp = 0 → sc.toNat < 3 ∨ x.vismax ≤ s.now → exec (.fence sc k) s = .next (s.retires id)) ∧
    (acq → x.cnt .ld = 0 → (rel → x.cnt .st = 0 ∧ x.cnt .cp = 0 ∧ (sc.toNat < 3 ∨ x.vismax ≤ s.now)) →
      ∃ t, exec (.fence sc k) s = .next t ∧ s.keepsRest t ∧ x.sameRegs (s.after t) ∧ (s.after t).pc = (x.nextPc x.pc).2 ∧
        (∀ l ∈ (t.chip.core s.ck).l1, l ∈ l1) ∧ (∀ l ∈ l1, (∀ e, l.kind ≠ .leased e) → l ∈ (t.chip.core s.ck).l1) ∧
        (7 ≤ sc.toNat → ∀ l ∈ (t.chip.core s.ck).l1, ∀ e, l.kind ≠ .leased e) ∧
        (∀ p, p ∈ (s.after t).kept ↔ p ∈ x.kept ∧ ∀ w ∈ s.chip.wrote.get [] (p.2.1 / 4), scopeHas s.ck sc.toNat w.1 = true → s.now < w.2) ∧
        (sc.toNat < 3 → (t.chip.core s.ck).l1 = l1))

/-- R294, R309, R310: an acquire load of global memory leaves as one request at its scope once the context's earlier loads and atomics are
over, and until then it waits; while it is out no later access goes, and its register is locked. A release store counts as a store and retires; its request leaves at its scope with VISMAX once the context's earlier loads,
stores and copies are over and, at ROW or wider, GTIME has reached VISMAX, and until then it is held and sends nothing. R304 to R306, R312: an atomic
instruction on global memory leaves as one request with its operation and operands under the core's next sequence number, counts as a load,
locks xd, and a timer of 65,536 cycles of its core is set for sending it again. The form of a request is the model's own (logs 29, 84). -/
def Obligations.OrderedAndAtomicAccessesLeave : Prop :=
  (∀ (s : State) (d a b : BitVec 5) (sc : BitVec 4), s.nextOk → s.cx.unsealed = false →
     let x := s.cx
     let ad := x.getX a.toNat
     (s.canRun false { x := [d.toNat, a.toNat], mem := true, ctr := .ld } → s.globalAccess ad 8 8 → x.cnt .ld ≠ 0 →
       exec (.ldacq d a sc) s = .next (s.waits (.ctrs 0 63 63 63 63))) ∧
     (s.canRun false { x := [d.toNat, a.toNat], mem := true, ctr := .ld } → s.globalAccess ad 8 8 → x.cnt .ld = 0 →
       ∃ t q, exec (.ldacq d a sc) s = .next t ∧ q.act = .ldacq sc.toNat ∧ q.va = ad ∧ q.n = 8 ∧ s.keepsRest t ∧ x.sameRegs (s.after t) ∧
         t.chip.net = s.chip.net ++ [⟨coreNode s.ck, transNode ad, .req, 0, .translate q⟩] ∧ (s.after t).acquiring = true ∧
         (s.after t).cnt .ld = x.cnt .ld + 1 ∧ (d.toNat ≠ 0 → (s.after t).lockedX d.toNat = true) ∧ (s.after t).pc = (x.nextPc x.pc).2) ∧
     (s.chip.wr = [] → x.fmt = none → x.acquiring = true → x.blocked { x := [d.toNat, a.toNat], mem := true, ctr := .ld } = false → ∀ o : BitVec 13,
       exec (.ld d a o) s = .next (s.waits .ldacq) ∧ exec (.ldacq d a sc) s = .next (s.waits .ldacq)) ∧
     (s.canRun false { x := [a.toNat, b.toNat], mem := true, ctr := .st } → s.globalAccess ad 8 8 → (∀ o ∈ x.ops, o.hold = false) →
       let early := ∃ o ∈ x.ops, o.id < s.chip.serial ∧ (o.ctr = .ld ∨ o.ctr = .st ∨ o.ctr = .cp)
       ∃ t q, exec (.strel a b sc) s = .next t ∧ q.act = .strel sc.toNat x.vismax ∧ q.va = ad ∧ q.n = 8 ∧ s.keepsRest t ∧ x.sameRegs (s.after t) ∧
         leNat q.data = (x.getX b.toNat).toNat ∧ (s.after t).cnt .st = x.cnt .st + 1 ∧ (s.after t).pc = (x.nextPc x.pc).2 ∧
         (¬early → sc.toNat < 3 ∨ x.vismax ≤ s.now → t.chip.net = s.chip.net ++ [⟨coreNode s.ck, transNode ad, .wrb, 0, .translate q⟩] ∧
           ∀ o ∈ (s.after t).ops, o.hold = false) ∧
         (early ∨ 3 ≤ sc.toNat ∧ s.now < x.vismax → t.chip.net = s.chip.net ∧ ∃ o ∈ (s.after t).ops, o.hold = true ∧ o.parts.map (·.q) = [q]))) ∧
  (∀ (s : State) (d a b : BitVec 5) (w : BitVec 1), s.nextOk → s.cx.unsealed = false →
     let x := s.cx
     let ad := x.getX a.toNat
     let k := s.chip.core s.ck
     s.canRun false { x := [d.toNat, a.toNat, b.toNat], mem := true, ctr := .ld } →
     (∀ home, (k.amoOut.filter (·.1 == home)).length < 8) →
     let leaves (i : Instr) (op n : Nat) : Prop := s.globalAccess ad n n →
       ∃ t q home, exec i s = .next t ∧ q.src = s.chip.cur ∧ q.vi = x.vi ∧ q.act = .atomic op (x.getX b.toNat) (x.getX d.toNat) ∧ q.va = ad ∧ q.n = n ∧
         q.seq = k.amoSeq.get 0 home ∧ (t.chip.core s.ck).amoOut = k.amoOut ++ [(home, q)] ∧
         (t.chip.core s.ck).amoSeq.get 0 home = (k.amoSeq.get 0 home + 1) % 65536 ∧
         t.chip.net = s.chip.net ++ [⟨0xFFFFF, 0xFFFFF, .rsp, s.now + s.chip.coreTicks s.ck 65536, .atomicResend q⟩, ⟨coreNode s.ck, transNode ad, .amo, 0, .translate q⟩] ∧
         s.keepsRest t ∧ x.sameRegs (s.after t) ∧ (s.after t).cnt .ld = x.cnt .ld + 1 ∧ (d.toNat ≠ 0 → (s.after t).lockedX d.toNat = true) ∧
         (s.after t).pc = (x.nextPc x.pc).2
     let n := if w = 1 then 4 else 8
     leaves (.amadd d a b w) 0 n ∧ leaves (.amand d a b w) 1 n ∧ leaves (.amor d a b w) 2 n ∧ leaves (.amxor d a b w) 3 n ∧
     leaves (.ammin d a b w) 4 n ∧ leaves (.ammax d a b w) 5 n ∧ leaves (.amminn d a b w) 6 n ∧ leaves (.ammaxn d a b w) 7 n ∧
     leaves (.amswp d a b w) 8 n ∧ leaves (.amcas d a b w) 9 n ∧ leaves (.amfadd d a b) 10 4 ∧ leaves (.amdadd d a b) 11 8)

/-- R304 to R307, R312: at an L2 home an atomic request replaces the old value by the new one of its operation, writes nothing else, and
replies with the old, which the home keeps on record; a request whose reply is on record writes nothing and gets the recorded reply; the
first reply writes xd and frees it, and sets the flags; an unanswered request is sent again with its sequence number after 65,536 cycles of its core.
Reply records are kept as log 29 says; the word holds no uncorrectable error (log 86), and memory is in its canonical form. -/
def Obligations.AtomicEvents : Prop :=
  ∀ (s : State) (q : Req) (op : Nat) (v c : W64), s.chip.wr = [] → q.act = .atomic op v c → q.host = false →
    (s.mem.wf = true → nodeIsCore q.home = false → q.home ≠ bridgeNode → (op < 10 ∧ (q.n = 4 ∨ q.n = 8)) ∨ (op = 10 ∧ q.n = 4) ∨ (op = 11 ∧ q.n = 8) →
      (s.chip.home q.home).recOf q = none → s.chip.badAt q.pa q.n = false →
      (s.chip.home q.home).watches = [] → (s.chip.home q.home).waddrs = [] →
      (∀ j < q.n, s.chip.tags.get 0 ((q.pa + j) / 128) = q.vi + 1) →
      let m := 2 ^ (8 * q.n)
      let old := leNat ((List.range q.n).map fun j => s.mem.read (q.pa + j))
      let u := v.toNat % m
      let int (n : Nat) : Int := (BitVec.ofNat (8 * q.n) n).toInt
      ∃ t vt fl, exec (.atomicRequest q) s = .next t ∧
        (∃ new, leNat ((List.range q.n).map fun j => t.mem.read (q.pa + j)) = new ∧
          (op = 0 → new = (old + u) % m) ∧ (op = 1 → new = old &&& u) ∧ (op = 2 → new = old ||| u) ∧ (op = 3 → new = old ^^^ u) ∧
          (op = 4 → new = if int u < int old then u else old) ∧ (op = 5 → new = if int old < int u then u else old) ∧
          (10 ≤ op → new = (fpAdd (op - 10) old u 0 false).1 % m ∧ fl = (fpAdd (op - 10) old u 0 false).2.toNat) ∧ (op < 10 → fl = 0) ∧
          (op = 6 → new = min old u) ∧ (op = 7 → new = max old u) ∧ (op = 8 → new = u) ∧ (op = 9 → new = if old = c.toNat % m then u else old)) ∧
        (∀ p, p < q.pa ∨ q.pa + q.n ≤ p → t.mem.read p = s.mem.read p) ∧
        (⟨q.home, coreNode (coreOf q.src), .rsp, 0, .atomicReply q (BitVec.ofNat 64 old) vt fl⟩ : Flight) ∈ t.chip.net ∧
        ∃ r, (t.chip.home q.home).recOf q = some r ∧ r.old = BitVec.ofNat 64 old ∧ r.vt = vt ∧ r.flags = fl) ∧
    (∀ r, nodeIsCore q.home = false → (s.chip.home q.home).recOf q = some r →
      ∃ t, exec (.atomicRequest q) s = .next t ∧ t.mem = s.mem ∧
        t.chip.net = s.chip.net ++ [⟨q.home, coreNode (coreOf q.src), .rsp, 0, .atomicReply q r.old r.vt r.flags⟩]) ∧
    (∀ old vt fl o d, nodeIsCore q.home = false → q.home ≠ bridgeNode → q.n = 8 → (s.chip.ctx q.src).ops = [o] → o.id = q.op → o.dst = .x d 8 true → d ≠ 0 →
      o.parts = [⟨q.part, 0, q⟩] → o.refused = [] → q.op ≠ 0 →
      ∃ t, exec (.atomicReply q old vt fl) s = .next t ∧ t.mem = s.mem ∧ (t.chip.ctx q.src).getX d = old ∧ (t.chip.ctx q.src).ops = [] ∧
        (t.chip.ctx q.src).vismax = max (s.chip.ctx q.src).vismax (max o.vt vt) ∧
        (t.chip.ctx q.src).fpflags = (s.chip.ctx q.src).fpflags ||| BitVec.ofNat 6 fl) ∧
    ((s.chip.core (coreOf q.src)).amoOut.any (fun p => p.2.part == q.part) = true → space q.va = 2 →
      ∃ t, exec (.atomicResend q) s = .next t ∧ t.mem = s.mem ∧
        t.chip.net = s.chip.net ++ [⟨coreNode (coreOf q.src), transNode q.va, .amo, 0, .translate q⟩,
          ⟨0xFFFFF, 0xFFFFF, .rsp, s.now + s.chip.coreTicks (coreOf q.src) 65536, .atomicResend q⟩])

/-! ### Prefixes, waiting and control registers (04 and 05) -/

/-- R122, R123, R151 to R153, R311: WAIT and GTWAIT retire exactly when their condition holds, and otherwise wait without effect; YIELD retires
and gives the core up for 64 cycles, and in a handler context starts its budget again; FMT makes its word the live prefix of the next one, and
traps PFXMIS at the end of an active loop body. A wait is an instruction that is issued again (log 85), and cycles last as log 5 says. -/
def Obligations.WaitingAndPrefix : Prop :=
  ∀ (s : State) (l st c m g : BitVec 4) (a : BitVec 5) (p q : BitVec 4) (r z : BitVec 2),
    let x := s.cx
    let fits (ctr : Ctr) (n : BitVec 4) : Prop := n = 15 ∨ x.cnt ctr ≤ n.toNat
    let met := fits .ld l ∧ fits .st st ∧ fits .cp c ∧ fits .mx m ∧ fits .msg g
    (s.canRun false {} → s.nextOk →
      (met → exec (.wait l st c m g) s = .next (s.retires id)) ∧
      (¬met → ∃ t, exec (.wait l st c m g) s = .next t ∧ s.keepsRest t ∧ x.sameRegs (s.after t) ∧ (s.after t).pc = x.pc ∧ (s.after t).st = .stall)) ∧
    (s.canRun false {} → s.nextOk → ∃ t, exec .yield s = .next t ∧ s.keepsRest t ∧ x.sameRegs (s.after t) ∧ (s.after t).pc = (x.nextPc x.pc).2 ∧
      (s.after t).yield = some s.chip.serial ∧ t.chip.net = s.chip.net ++ [⟨0xFFFFF, 0xFFFFF, .rsp, s.now + s.chip.coreTicks s.ck 64, .yieldExpiry s.chip.cur s.chip.serial⟩] ∧
      (6 ≤ s.chip.cur % 8 → (t.chip.core s.ck).hrun = 1024)) ∧
    (s.canRun false { x := [a.toNat] } → s.nextOk →
      ((x.getX a.toNat).toNat ≤ s.now → exec (.gtwait a) s = .next (s.retires id)) ∧
      (s.now < (x.getX a.toNat).toNat → ∃ t, exec (.gtwait a) s = .next t ∧ s.keepsRest t ∧ x.sameRegs (s.after t) ∧ (s.after t).pc = x.pc ∧
        (s.after t).st = .stall ∧ (x.wait ≠ .time (x.getX a.toNat).toNat →
          (⟨0xFFFFF, 0xFFFFF, .rsp, (x.getX a.toNat).toNat, .gtwaitExpiry s.chip.cur x.stamp⟩ : Flight) ∈ t.chip.net))) ∧
    (s.canRun false {} → s.nextOk →
      (x.noLoops = true ∨ (∀ n < 4, x.lpc.get 0 n ≠ 0 → x.lpe.get 0 n ≠ x.pc) → ∃ t, exec (.fmt p q r z) s = .next t ∧ s.keepsRest t ∧ x.sameRegs (s.after t) ∧
        (s.after t).pc = x.pc + 4 ∧ (s.after t).fmt = some (encode (.fmt p q r z))) ∧
      (x.noLoops = false → (∃ n < 4, x.lpc.get 0 n ≠ 0 ∧ x.lpe.get 0 n = x.pc) →
        exec (.fmt p q r z) s = .next (s.traps 0x04 (BitVec.ofNat 64 (encode (.fmt p q r z)).toNat))))

/-- R125, R126, R154, R155: MFC reads every control register where its access column allows, SEQSTATE once mx is 0, and a register that user
mode may not read traps PRIV with the word in TVAL. R125 to R127, R154, R227, R282: MTC writes every control register where its access column
allows, with its read-only and reserved bits kept; FPFLAGS keeps the flags that completions have set in the same cycle, WORKCTR is counted on
from its new value, and SEQSTATE stands after the retirement; in user mode PPRIV keeps its value and a register for privileged writes only
traps PRIV; one that no mode may write traps ILL in every mode, or PRIV where user mode may not even read it. The mode is checked when the instruction executes (log 36). -/
def Obligations.ControlRegisters : Prop :=
  (∀ (s : State) (d : BitVec 5), s.canRun false { x := [d.toNat] } → s.nextOk →
     let x := s.cx
     let reads (cr : Nat) (v : W64) : Prop := exec (.mfc d (BitVec.ofNat 12 cr)) s = .next (s.retires fun x => x.setX d.toNat v)
     let b (p : Bool) (n : Nat) : Nat := if p then 2 ^ n else 0
     reads 0x000 (BitVec.ofNat 64 (b (decide (6 ≤ s.chip.cur % 8)) 5 + b x.feed 4 + b x.pendPfx 3 + b x.ppriv 2 + b x.priv 1)) ∧
     reads 0x005 x.upcallvec ∧
     reads 0x006 (BitVec.ofNat 64 (s.chip.cur % 8 * 2 ^ 17 + s.chip.group % 16 * 2 ^ 13 + s.ck / 768 * 2 ^ 10 + s.ck % 768)) ∧
     reads 0x007 x.tilecoord ∧ reads 0x008 x.geom ∧ reads 0x009 x.workctr ∧ reads 0x00A (BitVec.ofNat 64 s.now) ∧ reads 0x00B (BitVec.ofNat 64 x.vismax) ∧
     reads 0x00C (BitVec.ofNat 64 x.fpflags.toNat) ∧ reads 0x00D (BitVec.ofNat 64 x.fprnd.toNat) ∧
     (x.cnt .mx = 0 → reads 0x00E (BitVec.ofNat 64 ((if x.seqValid then 65536 else 0) + x.seqSeg))) ∧ reads 0x00F x.pfxsave ∧
     (∀ m < 8, reads (0x010 + m) (x.msh.get 0 m)) ∧
     (reads 0x020 x.cp.src ∧ reads 0x021 x.cp.dst ∧ reads 0x022 x.cp.stra ∧ reads 0x023 x.cp.strb ∧ reads 0x024 x.cp.shape ∧ reads 0x025 x.cp.bound ∧
       reads 0x026 x.cp.ver ∧ reads 0x027 x.cp.done ∧ reads 0x028 x.cp.dev ∧ reads 0x029 x.cp.mcast) ∧
     (∀ n < 4, reads (0x030 + n) (x.lps.get 0 n) ∧ reads (0x034 + n) (x.lpe.get 0 n) ∧ reads (0x038 + n) (x.lpc.get 0 n)) ∧
     reads 0x041 (s.chip.vi x.vi).hedgecfg ∧ reads 0x042 (BitVec.ofNat 64 ((if x.dlen then 256 else 0) + x.holdlg)) ∧
     (∀ m < 16, let k := (s.chip.core s.ck).mbs.get ({} : Mbox) m
       reads (0x050 + m) (if k.vi = x.vi then BitVec.ofNat 64 (b k.spill 60 + b k.frz 59 + b k.run 58 + b k.en 57 + k.count * 2 ^ 50 + k.refcnt * 2 ^ 30 +
         k.depthm1 * 2 ^ 24 + k.size * 2 ^ 8 + k.type) else 0)) ∧
     (x.cnt .mx ≠ 0 → exec (.mfc d 0x00E) s = .next (s.waits (.ctrs 63 63 63 0 63))) ∧
     (x.priv = true → reads 0x001 x.cause ∧ reads 0x002 x.epc ∧ reads 0x003 x.tval ∧ reads 0x004 x.trapvec ∧
       (let f := s.chip.die (s.ck / 768); reads 0x040 (BitVec.ofNat 64 (f.wm * 2 ^ 32 + b f.ovf 31 + b f.lowint 30 + f.fbcount))) ∧
       (∀ n < 768, let p := (s.chip.die (s.ck / 768)).cmap.get n n
         reads (0x400 + n) (BitVec.ofNat 64 (b (s.chip.frozen (s.ck / 768 * 768 + n)) 12 + p / 192 * 2 ^ 10 + p % 192)))) ∧
     (x.priv = false → ∀ cr, cr ∈ [0x001, 0x002, 0x003, 0x004, 0x040] ∨ (0x400 ≤ cr ∧ cr < 0x700) →
       exec (.mfc d (BitVec.ofNat 12 cr)) s = .next (s.traps 0x02 (BitVec.ofNat 64 (encode (.mfc d (BitVec.ofNat 12 cr))).toNat)))) ∧
  (∀ (s : State) (a : BitVec 5), s.canRun false { x := [a.toNat] } → s.nextOk →
     let x := s.cx
     let v := x.getX a.toNat
     let writes (cr : Nat) (f : Ctx → Ctx) : Prop := exec (.mtc a (BitVec.ofNat 12 cr)) s = .next (s.retires f)
     let traps (cr code : Nat) : Prop := exec (.mtc a (BitVec.ofNat 12 cr)) s = .next (s.traps code (BitVec.ofNat 64 (encode (.mtc a (BitVec.ofNat 12 cr))).toNat))
     writes 0x000 (fun x => { x with pendPfx := v.getLsbD 3, ppriv := if x.priv then v.getLsbD 2 else x.ppriv }) ∧
     writes 0x005 (fun x => { x with upcallvec := v }) ∧ writes 0x00C (fun x => { x with fpflags := v.setWidth 6 ||| x.fpNow }) ∧
     writes 0x00D (fun x => { x with fprnd := v.setWidth 2 }) ∧ writes 0x00F (fun x => { x with pfxsave := v &&& 0xFFFFFFFF }) ∧
     (∀ m < 8, writes (0x010 + m) (fun x => { x with msh := x.msh.put m (v &&& 0xFFFFFFFFF) })) ∧
     writes 0x020 (fun x => { x with cp := { x.cp with src := v } }) ∧ writes 0x021 (fun x => { x with cp := { x.cp with dst := v } }) ∧
     writes 0x022 (fun x => { x with cp := { x.cp with stra := v } }) ∧ writes 0x023 (fun x => { x with cp := { x.cp with strb := v } }) ∧
     writes 0x024 (fun x => { x with cp := { x.cp with shape := v } }) ∧ writes 0x025 (fun x => { x with cp := { x.cp with bound := v } }) ∧
     writes 0x026 (fun x => { x with cp := { x.cp with ver := v } }) ∧ writes 0x027 (fun x => { x with cp := { x.cp with done := v } }) ∧
     writes 0x028 (fun x => { x with cp := { x.cp with dev := v } }) ∧ writes 0x029 (fun x => { x with cp := { x.cp with mcast := v } }) ∧
     (x.priv = true →
       writes 0x001 (fun x => { x with cause := v &&& 0x1FF }) ∧ writes 0x002 (fun x => { x with epc := v &&& ~~~3 }) ∧
       writes 0x003 (fun x => { x with tval := v }) ∧ writes 0x004 (fun x => { x with trapvec := v &&& 0xFFFFFFFFFFFFC }) ∧
       writes 0x007 (fun x => { x with tilecoord := v &&& 0xFFFFFFFFFFFF }) ∧ writes 0x008 (fun x => { x with geom := v }) ∧ writes 0x009 (fun x => { x with workctr := v }) ∧
       (∀ m < 16, let k := (s.chip.core s.ck).mbs.get ({} : Mbox) m
         exec (.mtc a (BitVec.ofNat 12 (0x050 + m))) s = .next (s.retiresIn (if k.vi = x.vi then
           s.at_.modCore s.ck fun y => { y with mbs := y.mbs.put m { k with frz := v.getLsbD 59 } } else s.at_))) ∧
       (∀ n < 4, (x.noLoops = true → writes (0x030 + n) (fun x => { x with lps := x.lps.put n v }) ∧ writes (0x034 + n) (fun x => { x with lpe := x.lpe.put n v }) ∧
           writes (0x038 + n) (fun x => { x with lpc := x.lpc.put n v })) ∧
         (({ x with lps := x.lps.put n v }.nextPc x.pc).2.toNat % 4 = 0 → writes (0x030 + n) (fun x => { x with lps := x.lps.put n v })) ∧
         (({ x with lpe := x.lpe.put n v }.nextPc x.pc).2.toNat % 4 = 0 → writes (0x034 + n) (fun x => { x with lpe := x.lpe.put n v })) ∧
         (({ x with lpc := x.lpc.put n v }.nextPc x.pc).2.toNat % 4 = 0 → writes (0x038 + n) (fun x => { x with lpc := x.lpc.put n v }))) ∧
       exec (.mtc a 0x040) s = .next (s.retiresIn (s.at_.modDie (s.ck / 768) fun f =>
         { f with wm := v.toNat / 2 ^ 32 % 2048, lowint := f.lowint && !v.getLsbD 30 })) ∧
       writes 0x00B (fun x => { x with vismax := v.toNat }) ∧ writes 0x042 (fun x => { x with dlen := v.getLsbD 8, holdlg := v.toNat % 32 }) ∧
       (∃ t, exec (.mtc a 0x00E) s = .next t ∧ (s.after t).seqValid = v.getLsbD 16 ∧ (s.after t).seqSeg = v.toNat % 65536 ∧ s.keepsRest t)) ∧
     (x.priv = false → ∀ cr ∈ [0x001, 0x002, 0x003, 0x004, 0x007, 0x008, 0x009, 0x00B, 0x00E, 0x030, 0x031, 0x032, 0x033, 0x034, 0x035, 0x036, 0x037, 0x038, 0x039,
       0x03A, 0x03B, 0x040, 0x042, 0x050, 0x051, 0x052, 0x053, 0x054, 0x055, 0x056, 0x057, 0x058, 0x059, 0x05A, 0x05B, 0x05C, 0x05D, 0x05E, 0x05F], traps cr 0x02) ∧
     (∀ cr ∈ [0x006, 0x00A, 0x041], traps cr 0x01) ∧
     (∀ cr, 0x400 ≤ cr → cr < 0x700 → traps cr (if x.priv then 0x01 else 0x02)))

/-! ### Tiles and the matrix unit (13_tensor_engine.md and 08) -/

/-- R263, R268, R269, R272: MACQ binds a tile register and clears its 16 KiB, does nothing for one that is bound, and traps TSHAPE when the
allowance is used up; MREL unbinds. R265, R272, R275 to R278: MLD, MST, the tile operations and the macro-ops trap TSHAPE with the first reason
that applies, in the order UNBOUND, BADSHAPE, BADTYPE, DIMS, and the first operand it applies to; a macro-op traps ALIAS where md is a
source, and SEGRANGE where SEQSTATE names no segment of it. The operand of DIMS follows log 35. Memory is in its canonical form. -/
def Obligations.TileBindingAndFaults : Prop :=
  (∀ (s : State) (d : BitVec 3), s.nextOk →
     let x := s.cx
     let z := tileAt s.chip.cur d.toNat
     (s.canRun false {} →
       (d.toNat ∈ x.tiles → exec (.macq d) s = .next (s.retires id)) ∧
       (s.mem.wf = true → d.toNat ∉ x.tiles → x.tiles.length < x.rc → ∃ t, exec (.macq d) s = .next t ∧ (s.after t).tiles = d.toNat :: x.tiles ∧
         (∀ p, z ≤ p → p < z + 16384 → t.mem.read p = 0) ∧ (∀ p, p < z ∨ z + 16384 ≤ p → t.mem.read p = s.mem.read p) ∧
         (∀ k, k ≠ s.chip.cur → t.chip.ctx k = s.chip.ctx k) ∧ x.sameRegs (s.after t) ∧ (s.after t).pc = (x.nextPc x.pc).2) ∧
       (d.toNat ∉ x.tiles → x.rc ≤ x.tiles.length → exec (.macq d) s = .next (s.traps 0x0A 2))) ∧
     (s.canRun false { wm := [d.toNat] } →
       exec (.mrel d) s = .next (s.retires fun x => { x with tiles := x.tiles.filter (· ≠ d.toNat) }))) ∧
  (∀ (x : Ctx) (l : List (Nat × Shape × Bool × Bool)),
     let first (bad : Nat × Shape × Bool × Bool → Prop) (i : Nat) : Prop := ∃ o, l[i]? = some o ∧ bad o ∧ ∀ j < i, ∀ p, l[j]? = some p → ¬bad p
     let unbound (o : Nat × Shape × Bool × Bool) : Prop := o.1 ∉ x.tiles
     let shape (o : Nat × Shape × Bool × Bool) : Prop := o.2.1.valid = false
     let type (o : Nat × Shape × Bool × Bool) : Prop := o.2.2.1 = true
     let dims (o : Nat × Shape × Bool × Bool) : Prop := o.2.2.2 = true
     (∀ i, first unbound i → tileCheck x l = some (BitVec.ofNat 64 (1 + i * 256))) ∧
     ((∀ o ∈ l, ¬unbound o) → ∀ i, first shape i → tileCheck x l = some (BitVec.ofNat 64 (3 + i * 256))) ∧
     ((∀ o ∈ l, ¬unbound o ∧ ¬shape o) → ∀ i, first type i → tileCheck x l = some (BitVec.ofNat 64 (4 + i * 256))) ∧
     ((∀ o ∈ l, ¬unbound o ∧ ¬shape o ∧ ¬type o) → ∀ i, first dims i → tileCheck x l = some (BitVec.ofNat 64 (5 + i * 256))) ∧
     ((∀ o ∈ l, ¬unbound o ∧ ¬shape o ∧ ¬type o ∧ ¬dims o) → tileCheck x l = none)) ∧
  (∀ (s : State) (d a b m : BitVec 3) (r : BitVec 5) (v : W64),
     let x := s.cx
     let traps (i : Instr) : Prop := exec i s = .next (s.traps 0x0A v)
     let fa := x.fmtTypes.1
     let fb := x.fmtTypes.2
     let sd := x.shape d.toNat none
     let sa := x.shape a.toNat fa
     let sb := x.shape b.toNat fb
     let sp := x.shape a.toNat none
     let far (u w : Shape) : Bool := u.rows != w.rows || u.cols != w.cols
     let fails (l : List (Nat × Shape × Bool × Bool)) : Prop := tileCheck x l = some v
     let segs := sd.rows / 16 * (sd.cols / 16) * ((sa.cols + 127) / 128)
     (s.canRun false { x := [r.toNat], wm := [d.toNat], mem := true, ctr := .ld } → fails [(d.toNat, sd, false, false)] → traps (.mld d r)) ∧
     (s.canRun false { x := [r.toNat], rm := [d.toNat], mem := true, ctr := .st } → fails [(d.toNat, sd, false, false)] → traps (.mst d r)) ∧
     (s.canRun false { wm := [d.toNat], ctr := .mx } → d.toNat ∉ x.tiles → v = 1 → traps (.mzero d)) ∧
     (s.canRun true { rm := [a.toNat, b.toNat], wm := [d.toNat], ctr := .mx } →
       fails [(d.toNat, sd, decide (3 < sd.ty), far sd sa || far sd sb), (a.toNat, sa, decide (3 < sa.ty), false), (b.toNat, sb, decide (3 < sb.ty), false)] → traps (.madd d a b)) ∧
     (s.canRun true { x := [r.toNat], rm := [a.toNat], wm := [d.toNat], ctr := .mx } →
       fails [(d.toNat, sd, decide (3 < sd.ty), far sd sa), (a.toNat, sa, decide (3 < sa.ty), false)] → traps (.mscl d a r)) ∧
     (s.canRun true { rm := [a.toNat], wm := [d.toNat], ctr := .mx } → fails [(d.toNat, sd, false, far sd sa), (a.toNat, sa, false, false)] → traps (.mcvt d a)) ∧
     (s.canRun false { rm := [a.toNat], wm := [d.toNat], ctr := .mx } →
       fails [(d.toNat, sd, tyW sd.ty != tyW sp.ty, sd.rows != sp.cols || sd.cols != sp.rows), (a.toNat, sp, false, false)] → traps (.mtrn d a)) ∧
     (s.canRun true { rm := [a.toNat, b.toNat], wm := [d.toNat], ctr := .mx } →
       let l := macroOperands x d.toNat a.toNat b.toNat none
       (fails l → traps (.mma d a b)) ∧
       (tileCheck x l = none → (d = a → v = 0x106 → traps (.mma d a b)) ∧ (d ≠ a → d = b → v = 0x206 → traps (.mma d a b)) ∧
         (d ≠ a → d ≠ b → x.seqValid = true → segs ≤ x.seqSeg → v = 7 → traps (.mma d a b)))) ∧
     (s.canRun true { rm := [a.toNat, b.toNat, m.toNat], wm := [d.toNat], ctr := .mx } →
       let l := macroOperands x d.toNat a.toNat b.toNat (some m.toNat)
       (fails l → traps (.mmas d a b m)) ∧
       (tileCheck x l = none → (d = a → v = 0x106 → traps (.mmas d a b m)) ∧ (d ≠ a → d = b → v = 0x206 → traps (.mmas d a b m)) ∧
         (d ≠ a → d ≠ b → d = m → v = 0x306 → traps (.mmas d a b m)) ∧
         (d ≠ a → d ≠ b → d ≠ m → x.seqValid = true → segs ≤ x.seqSeg → v = 7 → traps (.mmas d a b m)))))

/-- R265, R273, R274: MLD and MST move the bytes of a tile, in row order, between its register and its lines in the own window, and write no
other byte of memory and no register. The data hold no uncorrectable error (log 86), and memory is in its canonical form. -/
def Obligations.TileLoadsAndStores : Prop :=
  ∀ (s : State) (d : BitVec 3) (a : BitVec 5) (off : Nat), s.mem.wf = true → s.nextOk → s.chip.cur < 49152 → s.cx.unsealed = false →
    let x := s.cx
    let ad := x.getX a.toNat
    let z := tileAt s.chip.cur d.toNat
    let n := (x.shape d.toNat none).area
    d.toNat ∈ x.tiles → (x.shape d.toNat none).valid = true → s.at_.check s.chip.cur ad n 128 = none →
    (∀ p ∈ linesOf ad n, s.ownAccess p.2.1 p.2.2 128 (off + p.1) ∧ (s.chip.core s.ck).fullOver (off + p.1) p.2.2 = true ∧ s.chip.badAt (sram s.ck (off + p.1)) p.2.2 = false) →
    (s.canRun false { x := [a.toNat], wm := [d.toNat], mem := true, ctr := .ld } →
      ∃ t, exec (.mld d a) s = .next t ∧ (∀ j < n, t.mem.read (z + j) = s.spByte (off + j)) ∧
        (∀ p, p < z ∨ z + n ≤ p → t.mem.read p = s.mem.read p) ∧ x.sameRegs (s.after t) ∧ (s.after t).pc = (x.nextPc x.pc).2) ∧
    (s.canRun false { x := [a.toNat], rm := [d.toNat], mem := true, ctr := .st } →
      ∃ t, exec (.mst d a) s = .next t ∧ (∀ j < n, t.mem.read (sram s.ck (off + j)) = s.mem.read (z + j)) ∧
        (∀ p, p < sram s.ck off ∨ sram s.ck off + n ≤ p → t.mem.read p = s.mem.read p) ∧ x.sameRegs (s.after t) ∧ (s.after t).pc = (x.nextPc x.pc).2)

/-- R270, R275 to R277, R285: a legal tile operation retires at once with the mx counter raised; what the matrix unit has to do is fixed at
issue, registers, shapes, types, rounding and scale, and the cycles it takes; memory and the registers do not change yet. R227, R272, R275:
when the matrix unit has done a tile operation its result stands in md, its flags are set and mx has fallen; no other byte of memory
changes. A transpose exchanges rows and columns. Memory is in its canonical form where a result is read. -/
def Obligations.TileOperations : Prop :=
  (∀ (s : State) (d a b : BitVec 3) (r : BitVec 5), s.nextOk →
     let x := s.cx
     let ok (n : Nat) (ty : Option Nat) : Prop := n ∈ x.tiles ∧ (x.shape n ty).valid = true
     let fa := x.fmtTypes.1
     let fb := x.fmtTypes.2
     let sd := x.shape d.toNat none
     let same (u v : Shape) : Prop := u.rows = v.rows ∧ u.cols = v.cols
     let queues (i : Instr) (P : MArgs → Prop) (area : Nat := 16384) : Prop := ∃ t m, exec i s = .next t ∧ P m ∧ s.keepsRest t ∧ x.sameRegs (s.after t) ∧
       (s.after t).ops = x.ops ++ [{ id := s.chip.serial, kind := .tile m ((area + 511) / 512 + 4), ctr := .mx }] ∧ (s.after t).cnt .mx = x.cnt .mx + 1 ∧
       (s.after t).pc = (x.nextPc x.pc).2
     let sa := x.shape a.toNat fa
     let use (rm : List Nat) (i : Instr) : Prop := s.canRun i.takesPrefix { rm := rm, wm := [d.toNat], ctr := .mx }
     (d.toNat ∈ x.tiles → use [] (.mzero d) → queues (.mzero d) fun m => m.op = .zero ∧ m.d = d.toNat) ∧
     (ok d.toNat none → ok a.toNat fa → ok b.toNat fb → sd.ty ≤ 3 → (x.shape a.toNat fa).ty ≤ 3 → (x.shape b.toNat fb).ty ≤ 3 →
       same sd (x.shape a.toNat fa) → same sd (x.shape b.toNat fb) → use [a.toNat, b.toNat] (.madd d a b) →
       queues (.madd d a b) (fun m => m.op = .add ∧ m.d = d.toNat ∧ m.a = a.toNat ∧ m.b = b.toNat ∧ m.td = sd.ty ∧ m.rows = sd.rows ∧ m.cols = sd.cols ∧
         m.ta = (x.shape a.toNat fa).ty ∧ m.tb = (x.shape b.toNat fb).ty ∧ (m.rnd, m.sat) = x.rounding) (max sd.area (max sa.area (x.shape b.toNat fb).area))) ∧
     (ok d.toNat none → ok a.toNat fa → sd.ty ≤ 3 → (x.shape a.toNat fa).ty ≤ 3 → same sd (x.shape a.toNat fa) →
       s.canRun true { x := [r.toNat], rm := [a.toNat], wm := [d.toNat], ctr := .mx } →
       queues (.mscl d a r) (fun m => m.op = .scl ∧ m.d = d.toNat ∧ m.a = a.toNat ∧ m.sc = (x.getX r.toNat).setWidth 32 ∧ m.td = sd.ty ∧
         m.rows = sd.rows ∧ m.cols = sd.cols ∧ m.ta = (x.shape a.toNat fa).ty ∧ (m.rnd, m.sat) = x.rounding) (max sd.area sa.area)) ∧
     (ok d.toNat none → ok a.toNat fa → same sd (x.shape a.toNat fa) → use [a.toNat] (.mcvt d a) →
       queues (.mcvt d a) (fun m => m.op = .cvt ∧ m.d = d.toNat ∧ m.a = a.toNat ∧ m.td = sd.ty ∧ m.rows = sd.rows ∧ m.cols = sd.cols ∧
         m.ta = (x.shape a.toNat fa).ty ∧ (m.rnd, m.sat) = x.rounding) (max sd.area sa.area)) ∧
     (ok d.toNat none → ok a.toNat none → tyW sd.ty = tyW (x.shape a.toNat none).ty → sd.rows = (x.shape a.toNat none).cols →
       sd.cols = (x.shape a.toNat none).rows → use [a.toNat] (.mtrn d a) →
       queues (.mtrn d a) (fun m => m.op = .trn ∧ m.d = d.toNat ∧ m.a = a.toNat ∧ m.rows = sd.rows ∧ m.cols = sd.cols ∧ m.td = sd.ty ∧
         m.ta = (x.shape a.toNat none).ty) (max sd.area (x.shape a.toNat none).area))) ∧
  (∀ (s : State) (xk op : Nat) (m : MArgs) (o : Op) (n : Nat), s.mem.wf = true → s.chip.wr = [] → (s.chip.ctx xk).ops.find? (·.id == op) = some o → o.kind = .tile m n →
     o.ctr = .mx →
     let y := s.chip.ctx xk
     let z := tileAt xk m.d
     let w := tyW m.td / 8
     let ea (rg ty i : Nat) : Nat := leNat ((List.range (tyW ty / 8)).map fun j => s.mem.read (tileAt xk rg + i * (tyW ty / 8) + j))
     ∃ t, exec (.tileOpComplete xk op) s = .next t ∧
       (t.chip.ctx xk).ops = y.ops.filter (fun o => o.id ≠ op) ∧ (t.chip.ctx xk).cnt .mx < y.cnt .mx ∧ (∀ n, (t.chip.ctx xk).getX n = y.getX n) ∧
       (t.chip.ctx xk).pc = y.pc ∧ (∀ k, k ≠ xk → t.chip.ctx k = s.chip.ctx k) ∧
       (let flagged (f : Nat → BitVec 6) : Prop := ∀ b < 6, (t.chip.ctx xk).fpflags.getLsbD b = true ↔ y.fpflags.getLsbD b = true ∨ ∃ i < m.rows * m.cols, (f i).getLsbD b = true
        (m.op = .add → flagged fun i => (packOp m.td (FVal.add m.rnd (unpack m.ta (ea m.a m.ta i)) (unpack m.tb (ea m.b m.tb i))) m.rnd m.sat).2) ∧
        (m.op = .scl → flagged fun i => (packOp m.td (FVal.mul (unpack m.ta (ea m.a m.ta i)) (unpack 0 m.sc.toNat)) m.rnd m.sat).2) ∧
        (m.op = .cvt → flagged fun i => (convert m.td m.ta (ea m.a m.ta i) m.rnd m.sat).2) ∧
        (m.op = .zero ∨ m.op = .trn → (t.chip.ctx xk).fpflags = y.fpflags)) ∧
       (m.op = .zero → ∀ p, t.mem.read p = if z ≤ p ∧ p < z + 16384 then 0 else s.mem.read p) ∧
       (m.op ≠ .zero → (∀ p, p < z ∨ z + m.rows * m.cols * w ≤ p → t.mem.read p = s.mem.read p) ∧
         ∀ i < m.rows * m.cols,
           let r := leNat ((List.range w).map fun j => t.mem.read (z + i * w + j))
           (m.op = .add → r = (packOp m.td (FVal.add m.rnd (unpack m.ta (ea m.a m.ta i)) (unpack m.tb (ea m.b m.tb i))) m.rnd m.sat).1 % 2 ^ (8 * w)) ∧
           (m.op = .scl → r = (packOp m.td (FVal.mul (unpack m.ta (ea m.a m.ta i)) (unpack 0 m.sc.toNat)) m.rnd m.sat).1 % 2 ^ (8 * w)) ∧
           (m.op = .cvt → r = (convert m.td m.ta (ea m.a m.ta i) m.rnd m.sat).1 % 2 ^ (8 * w)) ∧
           (m.op = .trn → tyW m.ta = tyW m.td → r = ea m.a m.ta (i % m.cols * m.rows + i / m.cols))))

/-- R276 to R283: a legal MMA or MMAS starts a macro-op at the segment of SEQSTATE and stays at its PC. A SEGMENT_COMPLETE before the last adds
the sums of its segment to the 16 × 16 elements of its block, writes nothing else, and moves the macro-op on by one segment, or stops the
context at the next one where a stop is pending. The last one retires the instruction, and adds its sums, sets the flags and lets mx fall
4 cycles later. R228, R230, R232: the sum of a block of finite products without a cut is exact and sets no flag, and a sum of 0 leaves its
element unchanged. A zero sum under a special scale follows log 33; memory is in its canonical form where a result is read. -/
def Obligations.MacroOpsAndBlockSums : Prop :=
  ((∀ (s : State) (d a b m : BitVec 3), s.nextOk →
     let x := s.cx
     let fa := x.fmtTypes.1
     let fb := x.fmtTypes.2
     let sd := x.shape d.toNat none
     let sa := x.shape a.toNat fa
     let sb := x.shape b.toNat fb
     let sm := x.shape m.toNat none
     let ok (n : Nat) (sh : Shape) : Prop := n ∈ x.tiles ∧ sh.valid = true
     let starts (i : Instr) (scale : Bool) : Prop := ∃ t o, exec i s = .next t ∧ s.keepsRest t ∧ x.sameRegs (s.after t) ∧ (s.after t).pc = x.pc ∧
       (s.after t).mop = some o ∧ o.seg = (if x.seqValid then x.seqSeg else 0) ∧ o.ns = sd.rows / 16 * (sd.cols / 16) * ((sa.cols + 127) / 128) ∧ o.scale = scale ∧
       o.args.d = d.toNat ∧ o.args.a = a.toNat ∧ o.args.b = b.toNat ∧ o.args.rows = sd.rows ∧ o.args.cols = sd.cols ∧ o.args.kk = sa.cols ∧
       (o.args.rnd, o.args.sat) = x.rounding ∧ (s.after t).cnt .mx = x.cnt .mx + 1
     let shapes (fp8 : Bool) : Prop := ok d.toNat sd ∧ ok a.toNat sa ∧ ok b.toNat sb ∧ sd.ty = 0 ∧ sd.rows % 16 = 0 ∧ sd.cols % 16 = 0 ∧ sa.rows = sd.rows ∧
       sb.cols = sd.cols ∧ sa.cols = sb.rows ∧ sa.cols % (if fp8 then 128 else 16) = 0 ∧
       (if fp8 then (sa.ty = 4 ∨ sa.ty = 5) ∧ (sb.ty = 4 ∨ sb.ty = 5) else (sa.ty = 2 ∨ sa.ty = 3) ∧ (sb.ty = 2 ∨ sb.ty = 3)) ∧ d ≠ a ∧ d ≠ b ∧
       (x.seqValid = true → x.seqSeg < sd.rows / 16 * (sd.cols / 16) * ((sa.cols + 127) / 128))
     (∀ fp8, shapes fp8 → s.canRun true { rm := [a.toNat, b.toNat], wm := [d.toNat], ctr := .mx } → starts (.mma d a b) false) ∧
     (shapes true → ok m.toNat sm → sm.ty = 0 → sm.rows = sd.rows + 1 → sm.cols = sa.cols / 128 → sd.cols ≤ 128 → d ≠ m →
       s.canRun true { rm := [a.toNat, b.toNat, m.toNat], wm := [d.toNat], ctr := .mx } → starts (.mmas d a b m) true)) ∧
   (∀ (s : State) (xk : Nat) (o : MOp), s.mem.wf = true → s.chip.wr = [] → o.args.rows % 16 = 0 → o.args.cols % 16 = 0 → o.seg < o.args.ns →
     let y := s.chip.ctx xk
     let m := o.args
     let z := tileAt xk m.d
     let kc := (m.kk + 127) / 128
     let r0 := 16 * (o.seg / kc / (m.cols / 16))
     let c0 := 16 * (o.seg / kc % (m.cols / 16))
     let k0 := 128 * (o.seg % kc)
     let kn := min m.kk (k0 + 128) - k0
     let el (mem : Mem) (rg ty col i j : Nat) : Nat := leNat ((List.range (tyW ty / 8)).map fun b => mem.read (tileAt xk rg + (i * col + j) * (tyW ty / 8) + b))
     let sums (i j : Nat) : Nat × BitVec 6 := chunkSum (el s.mem m.d 0 m.cols (r0 + i) (c0 + j)) m.ta m.tb
       ((List.range kn).map fun k => (unpack m.ta (el s.mem m.a m.ta m.kk (r0 + i) (k0 + k)), unpack m.tb (el s.mem m.b m.tb m.cols (k0 + k) (c0 + j))))
       (if o.scale then unpack 0 (el s.mem m.s 0 kc (r0 + i) (o.seg % kc)) else .num false 1 0) (if o.scale then unpack 0 (el s.mem m.s 0 kc m.rows (o.seg % kc)) else .num false 1 0)
       m.rnd m.sat
     let added (t : State) : Prop := (∀ i < 16, ∀ j < 16, el t.mem m.d 0 m.cols (r0 + i) (c0 + j) = (sums i j).1 % 2 ^ 32) ∧
       ∀ p, (∀ i < 16, p < z + ((r0 + i) * m.cols + c0) * 4 ∨ z + ((r0 + i) * m.cols + c0 + 16) * 4 ≤ p) → t.mem.read p = s.mem.read p
     let fine (t : State) : Prop := (∀ n, (t.chip.ctx xk).getX n = y.getX n) ∧ ∀ k, k ≠ xk → t.chip.ctx k = s.chip.ctx k
     (y.mmaDue s.now = none → y.mop = some o → o.left = 0 →
       (o.seg + 1 < o.ns → ∃ t, exec (.segmentComplete xk) s = .next t ∧ added t ∧ fine t ∧
         (y.stopReq = false → s.chip.endReason xk = none → ∃ p, (t.chip.ctx xk).mop = some p ∧ p.seg = o.seg + 1 ∧ p.args = m ∧ p.left = m.steps (o.seg + 1) ∧
           (t.chip.ctx xk).pc = y.pc ∧ (t.chip.ctx xk).cnt .mx = y.cnt .mx) ∧
         (y.stopReq = true → (t.chip.ctx xk).mop = none ∧ (t.chip.ctx xk).st = .halt ∧ (t.chip.ctx xk).seqValid = true ∧ (t.chip.ctx xk).seqSeg = o.seg + 1 ∧
           (t.chip.ctx xk).epc = BitVec.ofNat 64 (y.pc.toNat / 4 * 4))) ∧
       (o.ns ≤ o.seg + 1 → y.stopReq = false → ∃ t, exec (.segmentComplete xk) s = .next t ∧ t.mem = s.mem ∧ fine t ∧ (t.chip.ctx xk).mop = none ∧
         (t.chip.ctx xk).pc = (y.nextPc y.pc).2 ∧ (t.chip.ctx xk).seqValid = false ∧ (t.chip.ctx xk).fmt = none ∧ (t.chip.ctx xk).cnt .mx = y.cnt .mx ∧
         (t.chip.ctx xk).workctr = y.workctr + 1 ∧
         ∀ p ∈ y.ops, p.kind = .mma → { p with kind := .mmaEnd o (s.now + s.chip.coreTicks (coreOf xk) 4) } ∈ (t.chip.ctx xk).ops)) ∧
     (∀ id, y.mmaDue s.now = some (id, o) → ∃ t, exec (.segmentComplete xk) s = .next t ∧ added t ∧ fine t ∧
       (t.chip.ctx xk).ops = y.ops.filter (fun p => p.id ≠ id) ∧ (t.chip.ctx xk).mop = y.mop ∧ (t.chip.ctx xk).pc = y.pc ∧
       ∀ b < 6, (t.chip.ctx xk).fpflags.getLsbD b = true ↔ y.fpflags.getLsbD b = true ∨ o.fl.getLsbD b = true ∨ ∃ i < 16, ∃ j < 16, (sums i j).2.getLsbD b = true))) ∧
  ((∀ ps : List ((Bool × Nat × Int) × (Bool × Nat × Int)), (∀ p ∈ ps, -18 ≤ p.1.2.2 + p.2.2.2) →
     let r := sumProducts (ps.map fun p => (.num p.1.1 p.1.2.1 p.1.2.2, .num p.2.1 p.2.2.1 p.2.2.2)) none
     r.special = none ∧ r.fl = 0 ∧
       r.d = (ps.map fun p => sgnInt (p.1.1 ^^ p.2.1) (p.1.2.1 * p.2.2.1 * 2 ^ (p.1.2.2 + p.2.2.2 + 18).toNat)).sum) ∧
   (∀ (cv rnd : Nat) (sat : Bool) (r : PSum) (u v : FVal), r.special = none → r.d = 0 → addSum cv r u v rnd sat = (cv, r.fl)))

/-- R24, R284: MGEO reads the first row and column of the unit, its rows and columns cut at the edge, and the masks of both. -/
def Obligations.MgeoResults : Prop :=
  ∀ (s : State) (d : BitVec 5), s.canRun false { x := [d.toNat] } → s.nextOk →
    let g := s.cx.geom.toNat
    let tc := s.cx.tilecoord.toNat
    let th := g % 2 ^ 12
    let tw := g / 2 ^ 12 % 2 ^ 12
    let eh := g / 2 ^ 24 % 2 ^ 20
    let ew := g / 2 ^ 44 % 2 ^ 20
    let r0 := tc / 2 ^ 16 % 2 ^ 16 * th
    let c0 := tc % 2 ^ 16 * tw
    let rows := if eh = 0 then th else min th (eh - r0)
    let cols := if ew = 0 then tw else min tw (ew - c0)
    let gives (l : BitVec 3) (v : Nat) : Prop := exec (.mgeo d l) s = .next (s.retires fun x => x.setX d.toNat (BitVec.ofNat 64 v))
    gives 0 r0 ∧ gives 1 c0 ∧ gives 2 rows ∧ gives 3 cols ∧ gives 4 (2 ^ min rows 64 - 1) ∧ gives 5 (2 ^ min cols 64 - 1)

/-! ### Locks (14_locks.md, R323 to R340) -/

/-- R323 to R326, R337 to R340, at an address that passes the checks: LOCK sends one request for its line and stalls; its answer goes to xd; a lock
that the context holds reads 3 at once, and a fifth traps LKDEPTH. UNLOCK of a line that is not held does nothing; of a held one, once its
loads, stores and copies are over and its stores are visible, it grants the lock to the next waiter and tells the home, or asks the home who
follows. LKTRY and LKQ leave as requests that count as loads; LKTRY of a held lock reads 3, and a fifth traps. At one that fails them all four
trap. The forms of events and messages are the model's own (log 84), a wait is an instruction that is issued again (log 85), and LKTRYs that
are still out count as log 94 says. -/
def Obligations.LockInstructions : Prop :=
  (∀ (s : State) (d a b : BitVec 5) (code : Nat), s.at_.lockCheck s.chip.cur (s.cx.getX a.toNat) = some code → s.cx.pend.kind ≠ .lock →
    let traps (i : Instr) : Prop := exec i s = .next (s.traps code (s.cx.getX a.toNat))
    (s.canRun false { x := [d.toNat, a.toNat, b.toNat], mem := true } → traps (.lock d a b)) ∧ (s.canRun false { x := [a.toNat], mem := true } → traps (.unlock a)) ∧
    (s.canRun false { x := [d.toNat, a.toNat], mem := true, ctr := .ld } → traps (.lktry d a) ∧ traps (.lkq d a))) ∧
  ∀ (s : State) (d a b : BitVec 5), s.nextOk → s.cx.unsealed = false → s.at_.lockCheck s.chip.cur (s.cx.getX a.toNat) = none →
    let x := s.cx
    let line := lineOf (x.getX a.toNat)
    let k := s.chip.core s.ck
    let v := x.getX b.toNat
    let room : Prop := ∀ home, (k.amoOut.filter (·.1 == home)).length < 8
    let free : Prop := x.lostOver line 128 = none ∧ ∀ h ∈ x.held, h.line ≠ line
    (s.canRun false { x := [d.toNat, a.toNat, b.toNat], mem := true } →
      (∀ w u, x.pend.kind = .lock → x.pend.ans = some (.value w u) → exec (.lock d a b) s = .next (s.retires fun x => x.setX d.toNat w)) ∧
      (x.pend.kind ≠ .lock → x.lostOver line 128 = none → (∃ h ∈ x.held, h.line = line) → exec (.lock d a b) s = .next (s.retires fun x => x.setX d.toNat 3)) ∧
      (x.pend.kind ≠ .lock → free → 4 ≤ x.held.length + x.triesLeft → exec (.lock d a b) s = .next (s.traps 0x0C (x.getX a.toNat))) ∧
      (x.pend.kind ≠ .lock → free → x.held.length + x.triesLeft + x.triesOut < 4 → room →
        ∃ t q home w, exec (.lock d a b) s = .next t ∧ s.keepsRest t ∧ x.sameRegs (s.after t) ∧ (s.after t).pc = x.pc ∧ (s.after t).st = .stall ∧
          q.va = line ∧ q.act = .lock false x.holdlg x.dlen x.holdsLock q.part ∧ (t.chip.core s.ck).amoOut = k.amoOut ++ [(home, q)] ∧
          (s.after t).waiting = some w ∧ w.line = line ∧ w.eid = q.part ∧
          w.deadline = (if v = 0 then none else some (s.now + v.toNat)) ∧
          (v ≠ 0 → (⟨0xFFFFF, 0xFFFFF, .rsp, s.now + v.toNat, .lockDeadline s.chip.cur w.eid⟩ : Flight) ∈ t.chip.net))) ∧
    (s.canRun false { x := [a.toNat], mem := true } → x.lostOver line 128 = none →
      ((∀ h ∈ x.held, h.line ≠ line) → exec (.unlock a) s = .next (s.retires id)) ∧
      (∀ h, x.held = [h] → h.line = line → h.owner = none → x.cnt .ld = 0 → x.cnt .st = 0 → x.cnt .cp = 0 → x.vismax ≤ s.now → k.ghostsUsed < 16 →
        let me : Waiter := ⟨s.chip.cur, h.eid, h.hold, x.vi, line⟩
        ∃ t, exec (.unlock a) s = .next t ∧ s.keepsRest t ∧ x.sameRegs (s.after t) ∧ (s.after t).held = [] ∧ (s.after t).pc = (x.nextPc x.pc).2 ∧
          (∀ n, h.next = some n → ∃ data, t.chip.net = s.chip.net ++
            [⟨coreNode s.ck, coreNode (coreOf n.xk), .rsp, 0, .grant n h.key 0 data⟩, ⟨coreNode s.ck, h.key.home, .amo, 0, .handoff h.key me n⟩]) ∧
          (h.next = none → t.chip.net = s.chip.net ++ [⟨coreNode s.ck, h.key.home, .amo, 0, .lkRelease h.key me 0⟩]))) ∧
    (s.canRun false { x := [d.toNat, a.toNat], mem := true, ctr := .ld } → room →
      (x.lostOver line 128 = none → (∃ h ∈ x.held, h.line = line) → exec (.lktry d a) s = .next (s.retires fun x => x.setX d.toNat 3)) ∧
      (free → 4 ≤ x.held.length + x.triesLeft → exec (.lktry d a) s = .next (s.traps 0x0C (x.getX a.toNat))) ∧
      (free → x.held.length + x.triesLeft + x.triesOut < 4 → ∃ t q home, exec (.lktry d a) s = .next t ∧ s.keepsRest t ∧ x.sameRegs (s.after t) ∧ q.va = line ∧
        q.act = .lock true x.holdlg x.dlen x.holdsLock q.part ∧ (t.chip.core s.ck).amoOut = k.amoOut ++ [(home, q)] ∧
        (s.after t).cnt .ld = x.cnt .ld + 1 ∧ (d.toNat ≠ 0 → (s.after t).lockedX d.toNat = true) ∧ (s.after t).pc = (x.nextPc x.pc).2) ∧
      (∃ t q home, exec (.lkq d a) s = .next t ∧ s.keepsRest t ∧ x.sameRegs (s.after t) ∧ q.va = line ∧ q.act = .lkq ∧
        (t.chip.core s.ck).amoOut = k.amoOut ++ [(home, q)] ∧ (s.after t).cnt .ld = x.cnt .ld + 1 ∧ (s.after t).pc = (x.nextPc x.pc).2))

/-- R306, R324, R327, R328, R340: what the home of a global line does with a lock request, an enquiry, a hand-over, a release, a hold deadline
and the acknowledgement of a break, by the state of its entry; a request that it has on record gets its reply again. The forms of events and
messages are the model's own (log 84). -/
def Obligations.LockHomeEvents : Prop :=
  ∀ (s : State) (k : LKey) (q : Req) (try_ dl hs : Bool) (hold : Nat) (eid : Nat), nodeIsCore k.home = false → q.home = k.home → q.pa / 128 * 128 = k.addr →
    q.act = .lock try_ hold dl hs eid → q.host = false →
    let h := s.chip.home k.home
    let w : Waiter := ⟨q.src, q.part, hold, q.vi, lineOf q.va⟩
    let new : Prop := h.recOf q = none ∧ (∀ p ∈ h.probes, p.q.part ≠ q.part) ∧ ∀ l ∈ h.locks, ∀ p ∈ l.parked, p.1.part ≠ q.part
    let src := coreNode (coreOf q.src)
    let out (i : Instr) (P : State → Prop) : Prop := ∃ t, exec i s = .next t ∧ t.chip.ctxs = s.chip.ctxs ∧ P t
    (∀ r, h.recOf q = some r → out (.lockRequest q) fun t => t.chip.homes = s.chip.homes ∧
      (r.lock = .enqueued → t.chip.net = s.chip.net ++ [⟨k.home, src, .rsp, 0, .enqueued q⟩]) ∧
      (∀ st d, r.lock = .grant st d → t.chip.net = s.chip.net ++ [⟨k.home, src, .rsp, 0, .grant w k st d⟩])) ∧
    (new → s.chip.lockEnt k = none → h.locks.length < 256 → out (.lockRequest q) fun t => ∃ l data, t.chip.lockEnt k = some l ∧ l.st = .held ∧ l.holder = some w ∧
      l.tail = some w ∧ l.deadline = s.now + 2 ^ max 10 (min 30 hold) ∧ (⟨k.home, src, .rsp, 0, .grant w k 0 data⟩ : Flight) ∈ t.chip.net ∧
      (⟨0xFFFFF, 0xFFFFF, .rsp, l.deadline, .holdDeadline k l.stamp⟩ : Flight) ∈ t.chip.net) ∧
    (new → s.chip.lockEnt k = none → 256 ≤ h.locks.length → out (.lockRequest q) fun t => t.chip.lockEnt k = none ∧
      t.chip.net = s.chip.net ++ [⟨k.home, src, .rsp, s.now + s.chip.coreTicks (coreOf q.src) 256, .lockTableRetry q⟩]) ∧
    (∀ l, s.chip.lockEnt k = some l →
      (new → l.st = .held ∨ l.st = .queued → try_ = true → out (.lockRequest q) fun t => t.chip.lockEnt k = some l ∧
        (∃ r, (t.chip.home k.home).recOf q = some r ∧ r.lock = .grant 2 []) ∧ t.chip.net = s.chip.net ++ [⟨k.home, src, .rsp, 0, .grant w k 2 []⟩]) ∧
      (∀ f, new → l.st = .held ∨ l.st = .queued → try_ = false → dl = true → hs = true → l.holder = some f → out (.lockRequest q) fun t => t.chip.lockEnt k = some l ∧
        t.chip.net = s.chip.net ++ [⟨k.home, coreNode (coreOf f.xk), .amo, 0, .probe q 1 f f⟩]) ∧
      (∀ z, new → l.st = .held ∨ l.st = .queued → try_ = false → dl = false ∨ hs = false → l.tail = some z → out (.lockRequest q) fun t =>
        (∃ r, (t.chip.home k.home).recOf q = some r ∧ r.lock = .enqueued) ∧
        t.chip.lockEnt k = some { l with st := .queued, tail := some w, nwait := min 65535 (l.nwait + 1) } ∧
        t.chip.net = s.chip.net ++ [⟨k.home, coreNode (coreOf z.xk), .amo, 0, .lkLink z k w⟩, ⟨k.home, src, .rsp, 0, .enqueued q⟩]) ∧
      (new → l.st = .orphan → out (.lockRequest q) fun t => ∃ m data, t.chip.lockEnt k = some m ∧ m.st = .held ∧ m.holder = some w ∧
        (⟨k.home, src, .rsp, 0, .grant w k 1 data⟩ : Flight) ∈ t.chip.net) ∧
      (new → l.st = .breaking → out (.lockRequest q) fun t => t.chip.net = s.chip.net ∧ t.chip.lockEnt k = some { l with parked := l.parked ++ [(q, true)] }) ∧
      (∀ f n, l.holder = some f → l.parked = [] → out (.handoff k f n) fun t => ∃ m, t.chip.lockEnt k = some m ∧ m.holder = some n ∧ m.nwait = l.nwait - 1 ∧
        m.st = (if l.tail = some n then .held else .queued) ∧ m.deadline = s.now + 2 ^ max 10 (min 30 n.hold)) ∧
      (∀ f, l.holder = some f → l.tail = some f → l.parked = [] → out (.lkRelease k f 0) fun t => t.chip.lockEnt k = none) ∧
      (∀ f st, l.holder = some f → l.tail = some f → l.parked = [] → st ≠ 0 → out (.lkRelease k f st) fun t =>
        ∃ m, t.chip.lockEnt k = some m ∧ m.st = .orphan ∧ m.holder = none) ∧
      (∀ f z, l.holder = some f → l.tail = some z → z ≠ f → l.parked = [] → out (.lkRelease k f 0) fun t =>
        t.chip.net = s.chip.net ++ [⟨k.home, coreNode (coreOf f.xk), .rsp, 0, .waitlink f k⟩]) ∧
      (∀ f, l.holder = some f → l.st = .held ∨ l.st = .queued → l.deadline ≤ s.now → out (.holdDeadline k l.stamp) fun t =>
        t.chip.lockEnt k = some { l with st := .breaking } ∧ t.chip.net = s.chip.net ++ [⟨k.home, coreNode (coreOf f.xk), .amo, 0, .lkBreak f k⟩]) ∧
      (∀ f, l.holder = some f → l.tail = some f → l.st = .breaking → l.parked = [] → out (.breakAck k f none false) fun t =>
        ∃ m, t.chip.lockEnt k = some m ∧ m.st = .orphan ∧ m.holder = none) ∧
      (∀ f n, l.holder = some f → l.st = .breaking → l.parked = [] → out (.breakAck k f (some n) false) fun t =>
        ∃ m, t.chip.lockEnt k = some m ∧ m.holder = some n) ∧
      (∀ f z, l.holder = some f → l.tail = some z → z ≠ f → l.st = .breaking → out (.breakAck k f none false) fun t =>
        t.chip.lockEnt k = some l ∧ t.chip.net = s.chip.net ++ [⟨k.home, coreNode (coreOf f.xk), .rsp, 0, .waitlink f k⟩])) ∧
    (∀ f n, s.chip.wr = [] → exec (.breakAck k f n true) s = .next s) ∧
    (∀ p r, p.home = k.home → p.host = false → p.act = .lkq → h.recOf p = some r → out (.lkqRequest p) fun t => t.chip.homes = s.chip.homes ∧
      t.chip.net = s.chip.net ++ [⟨k.home, coreNode (coreOf p.src), .rsp, 0, .loadReply p (leBytes 8 r.old.toNat) [] 0⟩]) ∧
    (∀ p, p.home = k.home → p.pa / 128 * 128 = k.addr → p.host = false → p.act = .lkq → h.recOf p = none → out (.lkqRequest p) fun t => ∃ d : List Byte,
      (∃ r, (t.chip.home k.home).recOf p = some r ∧ leBytes 8 r.old.toNat = d) ∧ (t.chip.home k.home).locks = h.locks ∧
      t.chip.net = s.chip.net ++ [⟨k.home, coreNode (coreOf p.src), .rsp, 0, .loadReply p d [] 0⟩] ∧ (s.chip.lockEnt k = none → leNat d = 0) ∧
      ∀ l, s.chip.lockEnt k = some l → leNat d = ((match l.holder with | some f => ctxId s.chip.group f.xk * 2 ^ 32 | none => 0) + l.nwait * 2 ^ 16 +
        (if l.st = .orphan then 8 else 1) + (if l.st = .breaking then 4 else 0) + (if ∃ f, l.holder = some f ∧ f.xk = p.src then 2 else 0)) % 2 ^ 64)

/-- R324, R326, R328 to R330: what a core does with a grant, a link, a break, a deadline and the answers of the home, for a context that
waits for a lock or holds it, and for the ghost that stands in for one. The forms of events and messages are the model's own (log 84). -/
def Obligations.LockCoreEvents : Prop :=
  ∀ (s : State) (k : LKey) (w n : Waiter) (we : WaitE) (q : Req), s.chip.wr = [] →
    let x := s.chip.ctx w.xk
    let c := s.chip.core (coreOf w.xk)
    let me := coreNode (coreOf w.xk)
    let out (i : Instr) (P : State → Prop) : Prop := ∃ t, exec i s = .next t ∧ t.mem = s.mem ∧ P t
    -- a waiting context
    (x.waiting = some we → we.eid = w.eid → x.ops = [] → x.st = .stall → x.pend.id = w.eid → w.eid ≠ 0 → x.pend.ans = none →
      (∀ u, we.deadline = some u → s.now ≤ u) → (∀ p ∈ c.links, p.1 ≠ w) →
      (∀ st data, st < 2 → out (.grant w k st data) fun t => (t.chip.ctx w.xk).waiting = none ∧
        (t.chip.ctx w.xk).pend.ans = some (.value (BitVec.ofNat 64 (st + if we.requeued then 256 else 0)) s.now) ∧
        ∃ h, (t.chip.ctx w.xk).held = x.held ++ [h] ∧ h.line = w.line ∧ h.key = k ∧ h.next = we.next ∧ h.lost = false ∧
        (data ≠ [] → ∃ l ∈ (t.chip.core (coreOf w.xk)).l1, l.va = w.line ∧ l.kind = .locked w.xk ∧ l.data = data)) ∧
      (∀ st, 2 ≤ st → out (.grant w k st []) fun t => (t.chip.ctx w.xk).waiting = none ∧ (t.chip.ctx w.xk).held = x.held ∧
        (t.chip.ctx w.xk).pend.ans = some (.value (BitVec.ofNat 64 st) s.now))) ∧
    (x.waiting = some we → we.eid = w.eid → (∀ h ∈ (s.chip.ctx (s.chip.holderOf w)).held, h.eid ≠ w.eid) → (∀ g ∈ c.ghosts, g.w ≠ w) →
      out (.lkLink w k n) fun t => (t.chip.ctx w.xk).waiting = some { we with next := some n }) ∧
    (∀ u, x.waiting = some we → we.deadline = some u → u ≤ s.now → we.granted = none → c.ghostsUsed < 16 → x.pend.id = we.eid → we.eid ≠ 0 → x.pend.ans = none →
      we.unsent = false → out (.lockDeadline w.xk we.eid) fun t => (t.chip.ctx w.xk).waiting = none ∧ (t.chip.ctx w.xk).pend.ans = some (.value 2 s.now) ∧
        (t.chip.core (coreOf w.xk)).ghosts.length = c.ghosts.length + 1) ∧
    (∀ u, x.waiting = some we → we.granted = some u → we.key = some k → x.st = .halt → we.next = some n → (∀ home, (c.amoOut.filter (·.1 == home)).length < 8) →
      out (.skipTimer w.xk we.eid) fun t => ∃ v r, (t.chip.ctx w.xk).waiting = some v ∧ v.requeued = true ∧ v.granted = none ∧ v.next = none ∧ v.unsent = false ∧
        (⟨me, coreNode (coreOf n.xk), .rsp, 0, .grant n k u we.gdata⟩ : Flight) ∈ t.chip.net ∧ (⟨me, k.home, .amo, 0, .lockRequest r⟩ : Flight) ∈ t.chip.net ∧
        (t.chip.vi x.vi).ctr.lkskip = (s.chip.vi x.vi).ctr.lkskip + 1) ∧
    (q.src = w.xk → x.waiting = some we → we.eid = q.part → out (.enqueued q) fun t =>
      (t.chip.ctx w.xk).waiting = some { we with key := some ⟨q.home, q.pa / 128 * 128⟩ } ∧ ∀ p ∈ (t.chip.core (coreOf w.xk)).amoOut, p.2.part ≠ q.part) ∧
    (q.src = w.xk → q.host = false → x.waiting = some we → we.eid = q.part → out (.lockTableRetry q) fun t =>
      t.chip.net = s.chip.net ++ [⟨me, q.home, .amo, 0, .lockRequest q⟩]) ∧
    -- a holder
    (∀ h, x.held = [h] → h.eid = w.eid → (∀ j, coreOf j = coreOf w.xk → j ≠ w.xk → ∀ g ∈ (s.chip.ctx j).held, g.eid ≠ w.eid) → (∀ g ∈ c.ghosts, g.w ≠ w) →
      out (.lkLink w k n) fun t => (t.chip.ctx w.xk).held = [{ h with next := some n }] ∧ t.chip.net = s.chip.net) ∧
    (∀ h, x.held = [h] → h.eid = w.eid → h.lost = false → h.next = some n → (∀ j, coreOf j = coreOf w.xk → j ≠ w.xk → ∀ g ∈ (s.chip.ctx j).held, g.eid ≠ w.eid) →
      out (.lkBreak w k) fun t => (t.chip.ctx w.xk).held = [{ h with lost := true }] ∧ (t.chip.vi w.vi).ctr.lkbreak = (s.chip.vi w.vi).ctr.lkbreak + 1 ∧
        ∃ data, t.chip.net = s.chip.net ++ [⟨me, coreNode (coreOf n.xk), .rsp, 0, .grant n k 1 data⟩, ⟨me, k.home, .amo, 0, .breakAck k w (some n) false⟩]) ∧
    -- a ghost
    (∀ g st data, x.waiting = none → x.ops = [] → c.ghosts = [g] → g.w = w → g.next = some n → st < 2 → data ≠ [] → out (.grant w k st data) fun t =>
      t.chip.ctxs = s.chip.ctxs ∧ (t.chip.core (coreOf w.xk)).ghosts = [] ∧ (⟨me, coreNode (coreOf n.xk), .rsp, 0, .grant n k st data⟩ : Flight) ∈ t.chip.net ∧
      (⟨me, k.home, .amo, 0, .handoff k w n⟩ : Flight) ∈ t.chip.net) ∧
    (∀ g, c.ghosts = [g] → g.w = w → g.next = some n → g.breaking = false →
      out (.waitlink w k) fun t => (∀ g ∈ (t.chip.core (coreOf w.xk)).ghosts, g.w ≠ w) ∧
        t.chip.net = s.chip.net ++ [⟨me, coreNode (coreOf n.xk), .rsp, 0, .grant n g.key g.status g.data⟩, ⟨me, g.key.home, .amo, 0, .handoff g.key w n⟩])

/-- R332, R333: a probe goes on from a holder that itself waits, up to eight hops, and tells a cycle when it meets the requester; a found
deadlock answers 3 and is reported to the dispatcher of the interface, which counts it, and otherwise the request is queued. The forms of
events and messages are the model's own (log 84); the place of a report follows log 28. -/
def Obligations.DeadlockProbeEvents : Prop :=
  ∀ (s : State) (q : Req) (hops : Nat) (h first z : Waiter) (we : WaitE) (wk : LKey) (l : LockE), s.chip.wr = [] → q.host = false →
    let x := s.chip.ctx (s.chip.holderOf h)
    let me := coreNode (coreOf h.xk)
    let out (i : Instr) (P : State → Prop) : Prop := ∃ t, exec i s = .next t ∧ t.mem = s.mem ∧ t.chip.ctxs = s.chip.ctxs ∧ P t
    ((∀ e ∈ x.held, e.eid ≠ h.eid) ∨ x.waiting = none → out (.probe q hops h first) fun t =>
      t.chip.net = s.chip.net ++ [⟨me, q.home, .rsp, 0, .probeResult q false hops first⟩]) ∧
    ((∃ e ∈ x.held, e.eid = h.eid) → x.waiting = some we → we.key = some wk → s.chip.lockEnt wk = some l → l.holder = some z →
      (z.xk = q.src → out (.probe q hops h first) fun t => t.chip.net = s.chip.net ++ [⟨me, q.home, .rsp, 0, .probeResult q true hops first⟩]) ∧
      (z.xk ≠ q.src → hops < 8 → out (.probe q hops h first) fun t =>
        t.chip.net = s.chip.net ++ [⟨me, coreNode (coreOf z.xk), .amo, 0, .probe q (hops + 1) z first⟩]) ∧
      (z.xk ≠ q.src → 8 ≤ hops → out (.probe q hops h first) fun t => t.chip.net = s.chip.net ++ [⟨me, q.home, .rsp, 0, .probeResult q false hops first⟩])) ∧
    (∀ tr ho dl hs eid, q.act = .lock tr ho dl hs eid → out (.probeResult q true hops first) fun t =>
      t.chip.net = s.chip.net ++ [⟨q.home, coreNode (coreOf q.src), .rsp, 0, .grant ⟨q.src, q.part, ho, q.vi, lineOf q.va⟩ ⟨q.home, q.pa / 128 * 128⟩ 3 []⟩,
        ⟨q.home, viNode q.vi, .mgt, 0, .deadlockReport q.vi (lineOf q.va) q.src hops first.xk⟩]) ∧
    (∀ ho dl hs eid l t0, nodeIsCore q.home = false → q.act = .lock false ho dl hs eid → s.chip.lockEnt ⟨q.home, q.pa / 128 * 128⟩ = some l →
      l.st = .held ∨ l.st = .queued → l.tail = some t0 → out (.probeResult q false hops first) fun t =>
      let w : Waiter := ⟨q.src, q.part, ho, q.vi, lineOf q.va⟩
      t.chip.lockEnt ⟨q.home, q.pa / 128 * 128⟩ = some { l with st := .queued, tail := some w, nwait := min 65535 (l.nwait + 1) } ∧
      t.chip.net = s.chip.net ++ [⟨q.home, coreNode (coreOf t0.xk), .amo, 0, .lkLink t0 ⟨q.home, q.pa / 128 * 128⟩ w⟩, ⟨q.home, coreNode (coreOf q.src), .rsp, 0, .enqueued q⟩]) ∧
    (∀ line xk f, (s.chip.vi q.vi).lklog.getLsbD 0 = false → out (.deadlockReport q.vi line xk hops f) fun t =>
      (t.chip.vi q.vi).ctr.lkdeadlock = (s.chip.vi q.vi).ctr.lkdeadlock + 1)

/-! ### Messages, tasks, counters and watchpoints (15_messages.md) -/

/-- R341, R342, R345, R355, R361: a mailbox message, a task or a record for the host leaves under the next sequence number of its pair, through a
fabric port where its core is another device's, is kept in the message unit, and counts in msg; CALLAT with a cell makes its line empty;
SENDN stalls for its answer and returns it; an ill-formed name, PC or slot traps. The pair of a message follows log 79, TVAL of a bad HMSG
log 47. -/
def Obligations.MessagesLeaveTheCore : Prop :=
  ∀ (s : State) (d a b : BitVec 5), s.nextOk → s.cx.unsealed = false → s.chip.cur < 49152 →
    let x := s.cx
    let v := x.getX a.toNat
    let w := x.getX b.toNat
    let k := s.chip.core s.ck
    let seq (name : W64) : Nat := ((k.pairSeq.find? (·.1 == pairOf name)).map (·.2)).getD 0
    let leaves (i : Instr) (name : W64) (dst : Nat) (body : Body) (sendn : Bool) (P : State → Msg → Prop) : Prop := ∃ t m mu, exec i s = .next t ∧
      t.mem = s.mem ∧ x.sameRegs (s.after t) ∧ m.src = s.chip.cur ∧ m.vi = x.vi ∧ m.name = name ∧ m.dst = dst ∧ m.body = body ∧ m.sendn = sendn ∧ m.seq = seq name ∧
      (if dst < 2 ^ 16 then t.chip.net = s.chip.net ++ [⟨coreNode s.ck, dst, .msg, 0, msgEv m⟩] ∧ t.chip.outbox = s.chip.outbox
       else t.chip.net = s.chip.net ∧ t.chip.outbox = s.chip.outbox ++ [(dst, msgEv m)]) ∧
      (t.chip.core s.ck).msgs = k.msgs ++ [mu] ∧ mu.m = m ∧ mu.xk = s.chip.cur ∧
      (s.after t).cnt .msg = x.cnt .msg + 1 ∧ P t m
    let n := 16 * 2 ^ (v.toNat / 2 ^ 30 % 4)
    let core (g : W64) : Nat := if g.toNat / 2 ^ 13 % 16 = s.chip.group % 16 then g.toNat / 2 ^ 10 % 8 * 4096 + g.toNat % 1024 else 2 ^ 16 + g.toNat / 2 ^ 13 % 16
    let mail (i : Instr) (sendn : Bool) (P : State → Msg → Prop) : Prop := nameOk v = true → s.at_.checkOwn s.chip.cur w n n = none → x.lostOver w n = none →
      (∀ off, s.at_.ownOff s.chip.cur w n = some off → k.fullOver off n = true) → s.chip.muRoom s.ck v = true →
      leaves i v (core v) (.mbox ((List.range n).map fun j => s.spByte (w.toNat % 2 ^ 18 + j))) sendn P
    (s.canRun false { x := [a.toNat, b.toNat], mem := true, ctr := .msg } →
      mail (.send a b) false (fun t _ => (s.after t).pc = (x.nextPc x.pc).2) ∧ (nameOk v = false → exec (.send a b) s = .next (s.traps 0x01 v))) ∧
    (s.canRun false { x := [d.toNat, a.toNat, b.toNat], mem := true, ctr := .msg } →
      (x.pend.kind ≠ .sendn → mail (.sendn d a b) true (fun t m => (s.after t).pc = x.pc ∧ (s.after t).st = .stall ∧ (s.after t).pend.id = m.id)) ∧
      (∀ r u, x.pend.kind = .sendn → x.pend.ans = some (.value r u) → exec (.sendn d a b) s = .next (s.retires fun x => x.setX d.toNat r))) ∧
    (s.canRun false { x := [d.toNat, a.toNat, b.toNat, 16, 17, 18, 19], mem := true, ctr := .msg } →
      (let cell := if d.toNat = 0 then 0 else x.getX d.toNat
       v.toNat < 2 ^ 17 → v.toNat % 1024 < 768 → w.toNat % 4 = 0 → (d.toNat ≠ 0 → s.at_.checkOwn s.chip.cur cell 128 128 = none ∧ x.lostOver cell 128 = none) →
        s.chip.muRoom s.ck (BitVec.ofNat 64 (2 ^ 63 + v.toNat)) = true →
        let me := ctxId s.chip.group s.chip.cur
        leaves (.callat d a b) (BitVec.ofNat 64 (2 ^ 63 + v.toNat)) (core v) (.task ⟨v.toNat / 2 ^ 10 % 8 * 768 + v.toNat % 1024, x.vi, w,
          [x.getX 16, x.getX 17, x.getX 18, x.getX 19, BitVec.ofNat 64 me, cell], me, cell⟩) false
          (fun t _ => (s.after t).pc = (x.nextPc x.pc).2 ∧ (d.toNat = 0 → (t.chip.core s.ck).empty = k.empty) ∧
            (d.toNat ≠ 0 → ∀ l, l ∈ (t.chip.core s.ck).empty ↔ l = cell.toNat % 2 ^ 18 / 128 ∨ l ∈ k.empty))) ∧
      (2 ^ 17 ≤ v.toNat ∨ 768 ≤ v.toNat % 1024 → exec (.callat d a b) s = .next (s.traps 0x01 v)) ∧
      (v.toNat < 2 ^ 17 → v.toNat % 1024 < 768 → w.toNat % 4 ≠ 0 → exec (.callat d a b) s = .next (s.traps 0x03 w))) ∧
    (s.canRun false { x := [a.toNat, b.toNat], ctr := .msg } → v.toNat < 4096 → s.chip.muRoom s.ck (BitVec.ofNat 64 (2 ^ 62 + v.toNat)) = true →
      leaves (.hmsg a b) (BitVec.ofNat 64 (2 ^ 62 + v.toNat)) (match s.chip.slotQueue x.vi v.toNat with | some q => q / 512 * 4096 + 0x800 | none => x.vi % 8 * 4096 + 0x800)
        (.record v.toNat w) false (fun t _ => (s.after t).pc = (x.nextPc x.pc).2)) ∧
    (s.canRun false { x := [a.toNat, b.toNat], ctr := .msg } → 4096 ≤ v.toNat → exec (.hmsg a b) s = .next (s.traps 0x01 ((encode (.hmsg a b)).setWidth 64)))

/-- R344, R351, R356 to R360: APIN binds a free mailbox to the areas its block names and returns the name, or 0 where none is free; AUNPIN
unbinds an empty one; RWI into the own window writes the word and raises the counter, into another core's it leaves as one request, and at a
global address it traps PERM; ARM arms an entry and returns its counter; DISARM disarms it; WATCH and REWATCH ask the home of a global word
and return its answer. A wait is an instruction that is issued again (log 85); memory is in its canonical form where a result is read. -/
def Obligations.ActorAndCounterInstructions : Prop :=
  ∀ (s : State) (d a b : BitVec 5), s.nextOk → s.cx.unsealed = false →
    let x := s.cx
    let v := x.getX a.toNat
    let ad := x.getX b.toNat
    let k := s.chip.core s.ck
    let blk := (List.range 32).map fun j => s.spByte (ad.toNat % 2 ^ 18 + j)
    let word (i : Nat) : Nat := wordAt blk i
    (s.canRun false { x := [d.toNat, a.toNat, b.toNat], mem := true } → s.at_.checkOwn s.chip.cur ad 32 8 = none → x.lostOver ad 32 = none →
      (∀ m, let size := word 0 / 2 ^ 8 % 4
        let len := (word 0 / 2 ^ 24 % 64 + 1) * (16 * 2 ^ size)
        let box0 : Mbox := { en := true, depthm1 := word 0 / 2 ^ 24 % 64, size := size, type := word 0 % 256, pc := v, vi := x.vi }
        let box : Mbox := { box0 with ring := word 1 % 2 ^ 18, st := word 2 % 2 ^ 18, stlen := word 3, area := true, frz := (s.chip.mbox s.ck m).frz }
        word 0 < 2 ^ 30 → word 0 / 2 ^ 10 % 2 ^ 14 = 0 → word 3 % 128 = 0 → 128 ≤ word 3 → word 3 ≤ 65536 → v.toNat % 4 = 0 → word 1 % 128 = 0 → word 2 % 128 = 0 →
        s.at_.areaOk s.chip.cur (BitVec.ofNat 64 (word 1)) len = true → s.at_.areaOk s.chip.cur (BitVec.ofNat 64 (word 2)) (word 3) = true →
        (word 1 + len ≤ word 2 ∨ word 2 + word 3 ≤ word 1) →
        ((∀ j < 16, (s.chip.mbox s.ck j).en = true) → exec (.apin d a b) s = .next (s.retires fun x => x.setX d.toNat 0)) ∧
        (m < 16 → (s.chip.mbox s.ck m).en = false → (∀ j < m, (s.chip.mbox s.ck j).en = true) →
        ∃ t, exec (.apin d a b) s = .next t ∧ s.keepsRest t ∧ t.chip.mbox s.ck m = box ∧ (s.after t).pc = (x.nextPc x.pc).2 ∧
          (d.toNat ≠ 0 → (s.after t).getX d.toNat = BitVec.ofNat 64 (box.type * 2 ^ 32 + size * 2 ^ 30 + m * 2 ^ 20 + coreAddr s.chip.group s.ck)) ∧
          (s.after t).left = [(box.ring, box.ring + len), (box.st, box.st + box.stlen)] ++ x.left)) ∧
      (let w := k.wt.get ({} : WTask) v.toNat
       v.toNat < 32 → word 3 < 2 ^ 33 → word 3 % 2 ^ 32 ≠ 0 → (w.armed = true → w.vi = x.vi) →
        ((if 2 ^ 32 ≤ word 3 then 0 else k.ec.get 0 v.toNat) < word 3 % 2 ^ 32) →
        ∃ t, exec (.arm d a b) s = .next t ∧ s.keepsRest t ∧ (s.after t).pc = (x.nextPc x.pc).2 ∧
          (d.toNat ≠ 0 → (s.after t).getX d.toNat = BitVec.ofNat 64 (if 2 ^ 32 ≤ word 3 then 0 else k.ec.get 0 v.toNat)) ∧
          (t.chip.core s.ck).wt.get ({} : WTask) v.toNat =
            ⟨true, x.vi, BitVec.ofNat 64 (word 0), BitVec.ofNat 64 (word 1), BitVec.ofNat 64 (word 2), word 3 % 2 ^ 32, w.fired⟩) ∧
      (isGlobal v = true → v.toNat % 8 = 0 → x.lostOver v 8 = none → word 3 < 16 → v.toNat % 128 + 8 * (word 3 + 1) ≤ 128 →
        (∀ home, (k.amoOut.filter (·.1 == home)).length < 8) → x.pend.kind ≠ .watch → ∀ re i, (re = false ∧ i = .watch d a b) ∨ (re = true ∧ i = .rewatch d a b) →
        ∃ t q home, exec i s = .next t ∧ s.keepsRest t ∧ x.sameRegs (s.after t) ∧ (s.after t).st = .stall ∧ (s.after t).pc = x.pc ∧ q.va = v ∧
          q.act = .watch re (BitVec.ofNat 64 (word 0)) (BitVec.ofNat 64 (word 1)) (BitVec.ofNat 64 (word 2)) (word 3) ∧
          (t.chip.core s.ck).amoOut = k.amoOut ++ [(home, q)])) ∧
    (s.canRun false { x := [d.toNat, a.toNat, b.toNat], mem := true } → ∀ r u, x.pend.kind = .watch → x.pend.ans = some (.value r u) →
      exec (.watch d a b) s = .next (s.retires fun x => x.setX d.toNat r) ∧ exec (.rewatch d a b) s = .next (s.retires fun x => x.setX d.toNat r)) ∧
    (s.canRun false { x := [a.toNat] } →
      (let m := v.toNat / 2 ^ 20 % 16
       let y := s.chip.mbox s.ck m
       nameOk v = true → y.en = true → y.vi = x.vi → v = mbName s.chip.group s.ck m y → y.count = 0 → y.run = false →
        ∃ t, exec (.aunpin a) s = .next t ∧ s.keepsRest t ∧ x.sameRegs (s.after t) ∧ t.chip.mbox s.ck m = ({} : Mbox) ∧ (s.after t).pc = (x.nextPc x.pc).2) ∧
      (∃ t, exec (.disarm a) s = .next t ∧ s.keepsRest t ∧ x.sameRegs (s.after t) ∧ (s.after t).pc = (x.nextPc x.pc).2 ∧
        let w := k.wt.get ({} : WTask) (v.toNat % 32)
        (w.vi = x.vi → ((t.chip.core s.ck).wt.get ({} : WTask) (v.toNat % 32)).armed = false) ∧
        (t.chip.core s.ck).wt.get ({} : WTask) (v.toNat % 32) = { w with armed := w.armed && decide (w.vi ≠ x.vi), fired := w.fired.filter (·.vi ≠ x.vi) })) ∧
    (s.canRun false { x := [a.toNat, b.toNat], mem := true, ctr := .msg } →
      (∀ n ck off, n = v.toNat / 2 ^ 18 % 32 → let at_ : W64 := BitVec.ofNat 64 (v.toNat - n * 2 ^ 18)
        s.at_.check s.chip.cur at_ 8 8 = none → space at_ = 1 → s.at_.ownOff s.chip.cur at_ 8 = none → s.at_.spParse at_ 1 = some (ck, off) → x.lostOver at_ 8 = none →
        x.placeBusy at_ 8 = false →
        ∃ t q, exec (.rwi a b) s = .next t ∧ s.keepsRest t ∧ q.act = .rwi n ∧ q.va = at_ ∧ q.data = leBytes 8 (x.getX b.toNat).toNat ∧ x.sameRegs (s.after t) ∧
          t.chip.net = s.chip.net ++ [⟨coreNode s.ck, coreNode ck, .msg, 0, .rwiArrival q⟩] ∧ (s.after t).cnt .msg = x.cnt .msg + 1 ∧ (s.after t).pc = (x.nextPc x.pc).2) ∧
      (∀ off n, s.mem.wf = true → n = v.toNat / 2 ^ 18 % 32 → s.ownAccess (BitVec.ofNat 64 (v.toNat - n * 2 ^ 18)) 8 8 off → (k.wt.get ({} : WTask) n).armed = false →
        ∃ t, exec (.rwi a b) s = .next t ∧ (∀ j < 8, t.mem.read (sram s.ck off + j) = BitVec.ofNat 8 ((x.getX b.toNat).toNat / 256 ^ j)) ∧
          (∀ p, p < sram s.ck off ∨ sram s.ck off + 8 ≤ p → t.mem.read p = s.mem.read p) ∧ x.sameRegs (s.after t) ∧ (s.after t).pc = (x.nextPc x.pc).2 ∧
          (t.chip.core s.ck).ec.get 0 n = min (k.ec.get 0 n + 1) (2 ^ 32 - 1)) ∧
      (isGlobal (BitVec.ofNat 64 (v.toNat - v.toNat / 2 ^ 18 % 32 * 2 ^ 18)) = true →
        exec (.rwi a b) s = .next (s.traps 0x09 (BitVec.ofNat 64 (v.toNat - v.toNat / 2 ^ 18 % 32 * 2 ^ 18)))))

/-- R346, R347, R351 to R353: a message is accepted into the ring, answered FULL or MBTYPE; a held message is offered again or withdrawn;
the answer frees it or holds it; the actor commands freeze, evict, restore and resume a mailbox, and a replay moves spilled messages back.
The forms of events and messages are the model's own (log 84); a pair with a held message follows log 39, a stub log 42, the engine's faults
log 46. Memory is in its canonical form where a payload is read. -/
def Obligations.MailboxEvents : Prop :=
  ∀ (s : State) (m : Msg) (die : Nat), s.chip.wr = [] →
    let ck := nodeCore m.dst
    let mb := m.name.toNat / 2 ^ 20 % 16
    let y := s.chip.mbox ck mb
    let fits : Prop := y.en = true ∧ y.unbinding = false ∧ y.vi = m.vi ∧ y.type = m.name.toNat / 2 ^ 32 % 256 ∧ y.size = m.name.toNat / 2 ^ 30 % 4
    let reply (ans : Nat) : Flight := ⟨m.dst, coreNode (coreOf m.src), .rsp, 0, .messageAnswer m ans⟩
    let out (i : Instr) (P : State → Prop) : Prop := ∃ t, exec i s = .next t ∧ P t
    (∀ p, m.src < 49152 → m.body = .mbox p →
      (s.mem.wf = true → fits → y.spill = false → y.refcnt = 0 → m.reoffer = false → y.count ≤ y.depthm1 → p.length = 16 * 2 ^ y.size → out (.messageArrival m) fun t =>
        (t.chip.mbox ck mb).count = y.count + 1 ∧ (t.chip.mbox ck mb).hdrs = y.hdrs ++ [m.seq % 65536 * 2 ^ 32 + ctxId s.chip.group m.src] ∧ reply 0 ∈ t.chip.net ∧
        ∀ j < p.length, t.mem.read (sram ck (y.ring + (y.headSlot + y.count) % (y.depthm1 + 1) * p.length) + j) = p.getD j 0) ∧
      (fits → y.spill = false → m.reoffer = false → m.sendn = false → y.refcnt ≠ 0 ∨ y.depthm1 < y.count → out (.messageArrival m) fun t => t.mem = s.mem ∧
        t.chip.net = s.chip.net ++ [reply 1] ∧ t.chip.mbox ck mb = { y with refcnt := y.refcnt + 1 }) ∧
      (¬fits → m.reoffer = false → out (.messageArrival m) fun t => t.mem = s.mem ∧ t.chip.net = s.chip.net ++ [reply 2] ∧ t.chip.mbox ck mb = y) ∧
      (out (.withdraw m) fun t => t.mem = s.mem ∧ t.chip.mbox ck mb = { y with refcnt := y.refcnt - 1 })) ∧
    (∀ u, m.src < 49152 → m.dst < 2 ^ 16 → (s.chip.core (coreOf m.src)).msgs = [u] → u.m.id = m.id → u.gone = false → u.xk = m.src →
      (u.held = true → u.inflight = false → u.due ≤ s.now → u.m = m → out (.reoffer m) fun t => t.chip.net = s.chip.net ++ [⟨coreNode (coreOf m.src), m.dst, .msg, 0, msgEv { m with reoffer := true }⟩] ∧
        (t.chip.core (coreOf m.src)).msgs = [{ u with inflight := true }]) ∧
      (m.sendn = false → out (.messageAnswer m 1) fun t => (t.chip.core (coreOf m.src)).msgs = [{ u with held := true, inflight := false, due := s.now + s.chip.coreTicks (coreOf m.src) 256 }] ∧
        t.chip.net = s.chip.net ++ [⟨0xFFFFF, 0xFFFFF, .rsp, s.now + s.chip.coreTicks (coreOf m.src) 256, .reoffer { m with reoffer := true }⟩] ∧ t.chip.ctxs = s.chip.ctxs) ∧
      (∀ o, m.sendn = false → (s.chip.ctx m.src).ops = [o] → o.id = u.op → o.parts = [⟨u.op, 0, {}⟩] → o.refused = [] → out (.messageAnswer m 0) fun t =>
        (t.chip.core (coreOf m.src)).msgs = [] ∧ (t.chip.ctx m.src).ops = [])) ∧
    (let d := s.chip.die die
     let c := die * 768 + d.avsel.toNat / 16 % 1024
     let n := d.avsel.toNat % 16
     let z := s.chip.mbox c n
     (z.en = true → (out (.freeze die) fun t => t.chip.mbox c n = { z with frz := true } ∧ (t.chip.die die).avstatus = 0 ∧ (t.chip.die die).avpend = 0) ∧
        (out (.thaw die) fun t => t.chip.mbox c n = { z with frz := false } ∧ (t.chip.die die).avstatus = 0)) ∧
     (z.en = false → out (.freeze die) fun t => (t.chip.die die).avstatus = 2 ∧ t.chip.cores = s.chip.cores) ∧
     (z.en = true → z.frz = true → z.spill = false → z.run = true → 4 ≤ d.avspill.toNat % 32 → d.avspill.toNat % 32 ≤ 16 →
        out (.evict die) fun t => (t.chip.die die).avstatus = 1 ∧ t.chip.cores = s.chip.cores ∧ t.mem = s.mem) ∧
     (z.en = true → z.frz = true → z.spill = false → z.run = false → 4 ≤ d.avspill.toNat % 32 → d.avspill.toNat % 32 ≤ 16 → z.count ≤ 2 ^ (d.avspill.toNat % 32) →
        (writePieces s.env false z.vi c s.chip (evictPieces s.env s.chip die)).2 = 0 → out (.evict die) fun t =>
          let r := t.chip.mbox c n
          r.spill = true ∧ r.area = false ∧ r.count = 0 ∧ r.spillCount = z.count ∧ r.pc = z.pc ∧ (t.chip.die die).avstatus = 0) ∧
     (let off := d.avarea.toNat % 2 ^ 18
      z.en = true → z.spill = true → z.area = false → off % 128 = 0 →
        (∀ g, off / 4096 ≤ g → g < (off + upTo z.ringLen 128 + z.stlen + 4095) / 4096 → s.chip.granuleFree c g = true) →
        ∀ c' data, readRow s.env s.chip false z.vi c (d.avsave + 64) z.stlen = .ok (c', data) → out (.restore die) fun t =>
          let r := t.chip.mbox c n
          r.area = true ∧ r.ring = off ∧ r.st = off + upTo z.ringLen 128 ∧ r.headSlot = 0 ∧ (t.chip.die die).avstatus = 0) ∧
     (z.spill = false → out (.restore die) fun t => (t.chip.die die).avstatus = 2 ∧ t.chip.cores = s.chip.cores ∧ t.mem = s.mem) ∧
     (z.en = true → z.spill = true → z.area = true → out (.actorResume die) fun t => t.chip.mbox c n = { z with replaying := true, frz := false } ∧ (t.chip.die die).avstatus = 0) ∧
     (∀ c' slot, z.en = true → z.spill = true → z.replaying = true → 1 < z.spillCount → z.count ≤ z.depthm1 →
        readRow s.env s.chip false z.vi c (z.spillAt z.spillHead) 256 = .ok (c', slot) → c'.mbox c n = z → out (.spillReplay c n) fun t =>
          let r := t.chip.mbox c n
          r.count = z.count + 1 ∧ r.hdrs = z.hdrs ++ [wordAt slot 0] ∧ r.spillHead = z.spillHead + 1 ∧ r.spillCount = z.spillCount - 1 ∧ r.spill = true) ∧
     (z.en = true → z.spill = true → z.replaying = true → z.spillCount = 0 → out (.spillReplay c n) fun t => t.mem = s.mem ∧
        t.chip.mbox c n = { z with spill := false, replaying := false }))

/-- R68, R69, R153, R298, R311, R348 to R350, R354 to R360, R397, R405: tasks queue or are answered FULL, at a core that is OFF with MBTYPE, and
start on an idle general context; a reply is written into its cell, which becomes full, unless another interface holds it (log 88) or the core is OFF; handler work,
a message or a repair, starts on an idle handler context, queues, or is held by its sender for 256 cycles, at a core that is OFF too (log 63); a repair starts once the
queue is empty, and goes on when its time comes (log 104); a spent budget traps; a remote word raises its
counter; a watch is installed; the timers of YIELD, GTWAIT and IDLE end their waits. The forms of events and messages are the model's own (log
84), cycles last as log 5 says, and memory is in its canonical form where a result is read. -/
def Obligations.TaskAndHandlerEvents : Prop :=
  ∀ (s : State) (ck xk : Nat) (m : Msg) (q : Req), s.chip.wr = [] →
    let k := s.chip.core ck
    let x := s.chip.ctx xk
    let out (i : Instr) (P : State → Prop) : Prop := ∃ t, exec i s = .next t ∧ P t
    (∀ t0, m.body = .task t0 → nodeCore m.dst = ck → m.src < 49152 → m.reoffer = false → s.chip.isOff ck = true → out (.taskArrive m) fun t =>
      (t.chip.core ck).tasks = k.tasks ∧ t.chip.net = s.chip.net ++ [⟨m.dst, coreNode (coreOf m.src), .rsp, 0, .messageAnswer m 2⟩]) ∧
    (∀ t0, m.body = .task t0 → nodeCore m.dst = ck → s.chip.isOff ck = false → k.taskRef = 0 → m.src < 49152 → m.reoffer = false →
      (k.tasks.length < 8 → out (.taskArrive m) fun t => (t.chip.core ck).tasks = k.tasks ++ [t0] ∧ (⟨m.dst, coreNode (coreOf m.src), .rsp, 0, .messageAnswer m 0⟩ : Flight) ∈ t.chip.net) ∧
      (8 ≤ k.tasks.length → out (.taskArrive m) fun t => (t.chip.core ck).tasks = k.tasks ∧ (t.chip.core ck).taskRef = 1 ∧
        t.chip.net = s.chip.net ++ [⟨m.dst, coreNode (coreOf m.src), .rsp, 0, .messageAnswer m 1⟩])) ∧
    (∀ t0 r, k.tasks = t0 :: r → (∀ n < 32, (k.wt.get ({} : WTask) n).fired = []) → s.chip.idleGeneral ck = some xk → t0.args.length = 6 → out (.taskStart ck) fun t => let y := t.chip.ctx xk
      (t.chip.core ck).tasks = r ∧ y.st = .ready ∧ y.kind = .task ∧ y.pc = t0.pc ∧ y.vi = t0.vi ∧ y.priv = false ∧ y.trapvec = (s.chip.vi t0.vi).vitrap ∧
      (∀ i < 6, y.getX (14 + i) = t0.args.getD i 0) ∧ (∀ i, i < 14 ∨ 20 ≤ i → y.getX i = 0) ∧ t.mem = s.mem) ∧
    (∀ h, h.ck = ck → h.again = true ∨ (∀ f ∈ s.chip.net, f.src ≠ handFrom h ∨ f.dst ≠ coreNode ck) → s.chip.isOff ck = false → s.chip.idleHandler ck = some xk → k.hq = [] → h.args.length = 4 →
      out (.handlerMessage h) fun t => let y := t.chip.ctx xk
      y.st = .ready ∧ y.kind = .handler ∧ y.pc = h.pc ∧ y.vi = h.vi ∧ y.budget = 65536 ∧ (∀ i < 4, y.getX (14 + i) = h.args.getD i 0) ∧ y.getX 18 = h.sender ∧ y.trapvec = (s.chip.vi h.vi).vitrap) ∧
    (∀ h, h.ck = ck →
      let delay := if h.sender.toNat / 2 ^ 13 % 16 = s.chip.group % 16 then s.chip.coreTicks (addrCore h.sender.toNat) 256 else 256
      let held : Flight := ⟨handFrom h, coreNode ck, .msg, s.now + delay, .handlerMessage { h with again := true }⟩
      let waits := ∃ f ∈ s.chip.net, f.src = handFrom h ∧ f.dst = coreNode ck
      (h.again = true ∨ ¬waits → s.chip.isOff ck = true → out (.handlerMessage h) fun t => t.chip.ctxs = s.chip.ctxs ∧ (t.chip.core ck).hq = k.hq ∧ t.chip.net = held :: s.chip.net) ∧
      (h.again = true ∨ ¬waits → s.chip.isOff ck = false → s.chip.idleHandler ck = none → out (.handlerMessage h) fun t => t.chip.ctxs = s.chip.ctxs ∧
        (k.hq.length < 16 → (t.chip.core ck).hq = k.hq ++ [.msg h]) ∧ (16 ≤ k.hq.length → t.chip.net = held :: s.chip.net)) ∧
      (h.again = false → waits → out (.handlerMessage h) fun t => t.chip.ctxs = s.chip.ctxs ∧ (t.chip.core ck).hq = k.hq ∧ t.chip.net = s.chip.net ++ [held])) ∧
    (∀ r, s.chip.repairDue s.now ck = none → s.chip.idleHandler ck = some xk → k.hq = [] → k.repairs = q :: r → out (.handlerRunStart ck) fun t => let y := t.chip.ctx xk
      (t.chip.core ck).repairs = r ∧ y.st = .stall ∧ y.kind = .handler ∧ y.repair = some q ∧ t.chip.net = s.chip.net) ∧
    (s.chip.repairDue s.now ck = some (xk, q) → space q.va = 2 → out (.handlerRunStart ck) fun t => ∃ cls,
      t.chip.net = s.chip.net ++ [⟨reqFrom q, transNode q.va, cls, 0, .translate q⟩] ∧ (t.chip.vi q.vi).ctr.scopemiss = (s.chip.vi q.vi).ctr.scopemiss + 1) ∧
    (∀ mb, s.chip.repairDue s.now ck = none → s.chip.idleHandler ck = some xk → k.hq = [] → k.repairs = [] → k.nextMbox = some mb → out (.handlerRunStart ck) fun t => let y := t.chip.ctx xk
      let z := s.chip.mbox ck mb
      (t.chip.mbox ck mb).run = true ∧ y.st = .ready ∧ y.kind = .handler ∧ y.pc = z.pc ∧ y.mbox = some mb ∧ y.budget = 65536 ∧
      y.getX 14 = windowAddr ck (z.ring + z.headSlot * (16 * 2 ^ z.size)) ∧ y.getX 15 = BitVec.ofNat 64 (z.hdrs.headD 0) ∧ y.getX 16 = windowAddr ck z.st ∧
      y.getX 17 = mbName s.chip.group ck mb z) ∧
    (x.kind = .handler → x.noBudget = false → x.mop = none → x.pend.kind ≠ .save → x.st = .ready → x.stopReq = false → x.budgetAt + x.budget * x.perCycle ≤ s.now → out (.hbudget xk) fun t => let y := t.chip.ctx xk
      y.cause = 0x10E ∧ y.epc = BitVec.ofNat 64 (x.pc.toNat / 4 * 4) ∧ y.priv = true ∧ y.ppriv = x.priv ∧ y.pc = x.trapvec) ∧
    (∀ w : Caller, ∀ cell args st, addrCore w.addr = ck → s.chip.isOff ck = true ∨ s.chip.heldByOther ck w.vi (cell.toNat % 2 ^ 18 / 128 * 128) 128 = true →
      exec (.callatReply w cell args st) s = .next s) ∧
    (∀ w : Caller, ∀ cell args st, s.mem.wf = true → args.length = 4 → addrCore w.addr = ck → s.chip.isOff ck = false → s.chip.heldByOther ck w.vi (cell.toNat % 2 ^ 18 / 128 * 128) 128 = false →
      out (.callatReply w cell args st) fun t => let z := sram ck (cell.toNat % 2 ^ 18 / 128 * 128)
      leNat ((List.range 8).map fun j => t.mem.read (z + 32 + j)) = st % 2 ^ 64 ∧ (∀ i < 4, leNat ((List.range 8).map fun j => t.mem.read (z + 8 * i + j)) = (args.getD i 0).toNat) ∧ (∀ l ∈ (t.chip.core ck).empty, l ≠ cell.toNat % 2 ^ 18 / 128) ∧
      (∀ p, p < z ∨ z + 40 ≤ p → t.mem.read p = s.mem.read p)) ∧
    (∀ n, s.mem.wf = true → q.act = .rwi n → nodeCore q.home = ck → s.chip.remoteOk q 8 = none → q.data.length = 8 → q.host = false → sram ck 0 ≤ q.pa → (k.wt.get ({} : WTask) n).armed = false → out (.rwiArrival q) fun t =>
      (∀ j < 8, t.mem.read (q.pa + j) = q.data.getD j 0) ∧ (t.chip.core ck).ec.get 0 n = min (k.ec.get 0 n + 1) (2 ^ 32 - 1) ∧
      (⟨q.home, coreNode (coreOf q.src), .rsp, 0, .storeAck q s.now⟩ : Flight) ∈ t.chip.net) ∧
    (∀ re pc a0 mask len, q.act = .watch re pc a0 mask len → q.host = false → (s.chip.home q.home).watches = [] → out (.watchRequest q) fun t => ∃ w data,
      (t.chip.home q.home).watches = [w] ∧ w.vi = q.vi ∧ w.ck = coreOf q.src ∧ w.va = q.va ∧ w.pa = q.pa ∧ w.len = len ∧ w.mask = mask ∧ w.pc = pc ∧ w.a0 = a0 ∧ w.gen = 1 ∧ w.live = true ∧
      t.chip.net = s.chip.net ++ [⟨q.home, coreNode (coreOf q.src), .rsp, 0, .loadReply q data [] 0⟩]) ∧
    ((s.chip.ctx q.src).pend.id = q.part → space q.va = 2 → q.host = false → out (.watchRetry q) fun t => ∃ p, t.chip.net = s.chip.net ++ [⟨coreNode (coreOf q.src), transNode q.va, p, 0, .translate { q with home := 0, pa := 0 }⟩]) ∧
    (∀ n, x.wait = .idle n → out (.idleTimeout xk x.stamp) fun t => t.chip.ctx xk = { x with idleWake := true }) ∧
    (∀ n, x.yield = some n → out (.yieldExpiry xk n) fun t => t.chip.ctx xk = { x with yield := none }) ∧
    (x.st = .stall → out (.gtwaitExpiry xk x.stamp) fun t => t.chip.ctx xk = { x with st := .ready })

/-! ### Tiles, claims and the calls of a unit (17_commit) -/

/-- R432, R436, R445, R446, R447 to R451: SEAL and COMMIT send one claim for the unit's tile and stall, or are answered BADHDR at once where its
header does not lie in global space; their answers retire them, or a COMMIT traps. CLAIMQ and RPIN leave as questions to the header's home,
WKQ as one to the dispatcher of the interface; RUNPIN gives a pin back; WKCAN cancels a level. Bad operands trap. TVAL of ILL follows log 47,
WKCAN log 44. -/
def Obligations.CommitInstructions : Prop :=
  ∀ (s : State) (d a b : BitVec 5), s.nextOk →
    let x := s.cx
    let v := x.getX a.toNat
    let w := x.getX b.toNat
    let me := coreNode s.ck
    let next := (x.nextPc x.pc).2
    let claims (i : Instr) (u : UnitCtx) (kind : ClaimKind) (P : State → Prop) : Prop := ∃ t q, exec i s = .next t ∧ s.keepsRest t ∧ x.sameRegs (s.after t) ∧
      q.src = s.chip.cur ∧ q.vi = x.vi ∧ q.va = u.head ∧ q.act = .claim kind u.u u.tx u.ty u.tz u.expv ∧ q.part = s.chip.serial ∧
      t.chip.net = s.chip.net ++ [⟨me, transNode u.head, .cmt, 0, .translate q⟩] ∧ (s.after t).st = .stall ∧ (s.after t).pend.id = q.part ∧
      (s.after t).pend.ans = none ∧ (s.after t).pc = x.pc ∧ P t
    let badhdr (i : Instr) (u : UnitCtx) (kind : ClaimKind) : Prop := ∃ t q, exec i s = .next t ∧ s.keepsRest t ∧ x.sameRegs (s.after t) ∧ q.va = u.head ∧
      q.act = .claim kind u.u u.tx u.ty u.tz u.expv ∧ t.chip.net = s.chip.net ++ [⟨me, me, .rsp, 0, .claimAnswer q .badhdr⟩] ∧ (s.after t).st = .stall ∧
      (s.after t).pend.id = q.part ∧ (s.after t).pc = x.pc
    let asks (i : Instr) (act : Act) : Prop := ∃ t q, exec i s = .next t ∧ s.keepsRest t ∧ x.sameRegs (s.after t) ∧
      q.src = s.chip.cur ∧ q.vi = x.vi ∧ q.va = v ∧ q.act = act ∧ t.chip.net = s.chip.net ++ [⟨me, transNode v, actCls act, 0, .translate q⟩] ∧
      (s.after t).cnt .ld = x.cnt .ld + 1 ∧ (d.toNat ≠ 0 → (s.after t).lockedX d.toNat = true) ∧ (s.after t).pc = next
    (s.canRun false { x := [d.toNat] } →
      (x.unsealed = false → exec (.seal d) s = .next (s.retires fun x => x.setX d.toNat 0)) ∧
      (x.unsealed = true → x.pend.kind = .seal → exec (.seal d) s = .next (s.waits .answer)) ∧
      (∀ u, x.unit = some u → u.hedged = true → u.sealed = false → x.pend.kind ≠ .seal → (isGlobal u.head = true → claims (.seal d) u .seal fun _ => True) ∧
        (isGlobal u.head = false → badhdr (.seal d) u .seal))) ∧
    (s.canRun false { x := [d.toNat, a.toNat, b.toNat], mem := true } →
      (∀ p t, x.pend.kind = .commit → x.pend.ans = some (.value p t) → exec (.commit d a b) s = .next (s.retires fun x => x.setX d.toNat 0)) ∧
      (∀ code t, x.pend.kind = .commit → x.pend.ans = some (.refused code t) → exec (.commit d a b) s = .next (s.traps code t)) ∧
      (x.pend.kind = .commit → x.pend.ans = none → exec (.commit d a b) s = .next (s.waits .answer)) ∧
      (x.pend.kind ≠ .commit → (∀ u, x.unit = some u → u.hedged = false ∨ u.published = true) →
        exec (.commit d a b) s = .next (s.traps 0x01 (w64 (encode (.commit d a b)).toNat))) ∧
      (∀ u, x.pend.kind ≠ .commit → x.unit = some u → u.hedged = true → u.published = false → s.at_.checkOwn s.chip.cur v 128 128 = none → w = 0 →
        (x.cnt .st ≠ 0 → exec (.commit d a b) s = .next (s.waits (.ctrs 63 0 63 63 63))) ∧
        (x.cnt .st = 0 → isGlobal u.head = true → claims (.commit d a b) u .commit fun t =>
          (s.after t).commit = some ⟨s.chip.serial, [{ head := u.head, src := v, expv := u.expv }]⟩) ∧
        (x.cnt .st = 0 → isGlobal u.head = false → badhdr (.commit d a b) u .commit)) ∧
      (∀ u code, x.pend.kind ≠ .commit → x.unit = some u → u.hedged = true → u.published = false →
        (s.at_.checkOwn s.chip.cur v 128 128 = some code → exec (.commit d a b) s = .next (s.traps code v)) ∧
        (s.at_.checkOwn s.chip.cur v 128 128 = none → w ≠ 0 → s.at_.checkOwn s.chip.cur w 128 128 = some code → exec (.commit d a b) s = .next (s.traps code w)) ∧
        (s.at_.checkOwn s.chip.cur v 128 128 = none → w ≠ 0 → s.at_.checkOwn s.chip.cur w 128 128 = none →
          groupList s.at_ s.chip.cur (rdN s.env s.at_ (sram s.ck (w.toNat % 2 ^ 18)) 128) = none → exec (.commit d a b) s = .next (s.traps 0x01 w))) ∧
      (∀ u sec, x.pend.kind ≠ .commit → x.unit = some u → u.hedged = true → u.published = false → s.at_.checkOwn s.chip.cur v 128 128 = none → w ≠ 0 →
        s.at_.checkOwn s.chip.cur w 128 128 = none → groupList s.at_ s.chip.cur (rdN s.env s.at_ (sram s.ck (w.toNat % 2 ^ 18)) 128) = some sec →
        sec ≠ [] → x.cnt .st = 0 → isGlobal u.head = true → claims (.commit d a b) u (.group (sec.map fun t => (t.head, t.expv))) fun t =>
          (s.after t).commit = some ⟨s.chip.serial, { head := u.head, src := v, expv := u.expv } :: sec⟩)) ∧
    (s.canRun false { x := [d.toNat, a.toNat], mem := true, ctr := .ld } → x.lostOver v 128 = none →
      (isGlobal v = true → v.toNat % 128 = 0 → asks (.claimq d a) .claimq) ∧
      (isGlobal v = true → v.toNat % 128 ≠ 0 → exec (.claimq d a) s = .next (s.traps 0x05 v)) ∧
      (isGlobal v = false → exec (.claimq d a) s = .next (s.traps 0x09 v))) ∧
    (s.canRun false { x := [d.toNat, a.toNat, b.toNat], mem := true, ctr := .ld } → x.lostOver v 128 = none → isGlobal v = true → v.toNat % 128 = 0 →
      let n := (x.pins.filter (·.rpin)).length
      (2 ^ 32 ≤ w.toNat → exec (.rpin d a b) s = .next (s.traps 0x01 w)) ∧
      (w.toNat < 2 ^ 32 → n < 8 → asks (.rpin d a b) (.rpin (BitVec.ofNat 32 w.toNat))) ∧
      (w.toNat < 2 ^ 32 → 8 ≤ n → exec (.rpin d a b) s = .next (s.retires fun x => x.setX d.toNat 1))) ∧
    (s.canRun false { x := [a.toNat] } →
      (x.cnt .ld ≠ 0 ∨ x.cnt .cp ≠ 0 → exec (.runpin a) s = .next (s.waits (.ctrs 0 63 0 63 63))) ∧
      (x.cnt .ld = 0 → x.cnt .cp = 0 → (∀ p ∈ x.pins, p.buf ≠ v) → exec (.runpin a) s = .next (s.retires id)) ∧
      (∀ p, x.cnt .ld = 0 → x.cnt .cp = 0 → x.pins.find? (·.buf == v) = some p → ∃ t, exec (.runpin a) s = .next t ∧ s.keepsRest t ∧
        x.sameRegs (s.after t) ∧ (s.after t).pins = x.pins.erase p ∧ (s.after t).pc = next ∧
        t.chip.net = s.chip.net ++ [⟨me, p.home, .cmt, 0, .claimRelease { src := s.chip.cur, part := s.chip.serial, vi := x.vi, act := .unpin p.bufB, va := p.head, n := 128, home := p.home, pa := p.pa }⟩])) ∧
    (s.canRun false { x := [d.toNat, a.toNat, b.toNat], ctr := .ld } →
      (wkOk v w = false → exec (.wkq d a b) s = .next (s.traps 0x01 (w64 (encode (.wkq d a b)).toNat))) ∧
      (wkOk v w = true → ∃ t q, exec (.wkq d a b) s = .next t ∧ s.keepsRest t ∧ x.sameRegs (s.after t) ∧ q.src = s.chip.cur ∧ q.vi = x.vi ∧
        q.act = .wkq v.toNat w.toNat ∧ t.chip.net = s.chip.net ++ [⟨me, viNode x.vi, .req, 0, .loadRequest q⟩] ∧
        (s.after t).cnt .ld = x.cnt .ld + 1 ∧ (d.toNat ≠ 0 → (s.after t).lockedX d.toNat = true) ∧ (s.after t).pc = next)) ∧
    (s.canRun false { x := [d.toNat, a.toNat, b.toNat] } →
      let i := s.chip.vi x.vi
      (wkOk v w = false → exec (.wkcan d a b) s = .next (s.traps 0x01 (w64 (encode (.wkcan d a b)).toNat))) ∧
      (wkOk v w = true → x.unsealed = false → i.liveLevel v.toNat w.toNat = false →
        exec (.wkcan d a b) s = .next (s.retires fun x => x.setX d.toNat (if i.knows v.toNat w.toNat then 0 else 0x24))) ∧
      (∀ y, wkOk v w = true → x.unsealed = false → i.levels = [y] → i.launches = [] → y.kind = v.toNat → y.id = w.toNat → v ≠ 0 → y.complete = false →
        y.done ≠ y.members → ∃ t, exec (.wkcan d a b) s = .next t ∧ s.keepsRest t ∧ (∀ n, (s.after t).getX n = if n = d.toNat then 0 else x.getX n) ∧
          (t.chip.vi x.vi).levels = [{ y with closed := true, cancelled := true }] ∧ (s.after t).pc = next) ∧
      (∀ l, wkOk v w = true → x.unsealed = false → i.launches = [l] → l.lid = w.toNat → v = 0 → l.st ≠ .complete → l.cancelled = false → l.units = [] →
        ∃ t m, exec (.wkcan d a b) s = .next t ∧ s.keepsRest t ∧ (∀ n, (s.after t).getX n = if n = d.toNat then 0 else x.getX n) ∧
          (t.chip.vi x.vi).launches = [m] ∧ m.lid = l.lid ∧ m.cancelled = true ∧ m.st = .complete ∧ (s.after t).pc = next))

/-- R152, R372, R440, R441: DONE waits until nothing is outstanding, releases an unpublished claim with VOID, and else ends the work: the
context falls idle, its record gone; an unhedged unit of a launch with more units is recorded as won. A cancelled copy waits for room among
the ghosts and for the segment of its macro-op, or ends at once. The end of a context of a lost claim follows log 45. -/
def Obligations.EndOfWork : Prop :=
  ∀ (s : State), s.canRun false {} →
    let x := s.cx
    let k := s.chip.core s.ck
    let idle : Prop := x.cnt .ld = 0 ∧ x.cnt .st = 0 ∧ x.cnt .cp = 0 ∧ x.cnt .mx = 0 ∧ x.cnt .msg = 0
    let quiet : Prop := x.pend.kind ≠ .void ∧ idle ∧ x.held = [] ∧ k.ghostsUsed ≤ 16 ∧ k.hslots = []
    (x.pend.kind ≠ .void → ¬ idle → exec .done s = .next (s.waits (.ctrs 0 0 0 0 0))) ∧
    (∀ u, x.pend.kind ≠ .void → idle → x.unit = some u → u.hedged = true → u.published = false → s.nextOk → isGlobal u.head = true → ∃ t q, exec .done s = .next t ∧
      s.keepsRest t ∧ q.src = s.chip.cur ∧ q.va = u.head ∧ q.act = .claim .void u.u u.tx u.ty u.tz u.expv ∧
      t.chip.net = s.chip.net ++ [⟨coreNode s.ck, transNode u.head, .cmt, 0, .translate q⟩] ∧ (s.after t).st = .stall ∧ (s.after t).pend.id = q.part) ∧
    (x.pend.kind = .void → x.pend.ans = none → exec .done s = .next (s.waits .answer)) ∧
    (quiet → (∀ u, x.unit = some u → u.hedged = false ∨ u.published = true) → ∃ t, exec .done s = .next t ∧ s.keepsRest t ∧
      s.after t = { stamp := x.stamp + 1 }) ∧
    (∀ u l n r, quiet → x.kind = .unit → x.unit = some u → u.hedged = false → (s.chip.vi u.u.vi).launches = [l] → l.lid = u.u.lid → l.units = [n] →
      l.lid < 2 ^ 32 → n.idx = u.u.idx → n.copies = [r] → r.copy = u.u.copy → r.xk = s.chip.cur → r.st = .resident → n.res = none → n.winner = none → n.nback = 0 →
      l.retired + 1 < l.total → (∀ p ∈ s.chip.dies, p.2.backups = []) → ∃ t m z, exec .done s = .next t ∧ (t.chip.vi u.u.vi).launches = [m] ∧ m.retired = l.retired + 1 ∧ m.units = [z] ∧
        z.res = some .won ∧ z.winner = some r.copy ∧ (t.chip.vi u.u.vi).ctr.uwon = (s.chip.vi u.u.vi).ctr.uwon + 1) ∧
    (∀ xk reason u y, s.chip.wr = [] → (s.chip.ctx xk).unit = some y → y.u = u → u.lid < 2 ^ 32 → (s.chip.ctx xk).st ≠ .idle →
      (s.chip.canEnd xk = false ∨ (s.chip.ctx xk).mop ≠ none → ∃ t, exec (.cancelCopy xk reason (some u)) s = .next t ∧ t.mem = s.mem ∧
        t.chip.ctx xk = { s.chip.ctx xk with ending := some ((s.chip.ctx xk).ending.getD reason) }) ∧
      (s.chip.canEnd xk = true → (s.chip.ctx xk).mop = none → (s.chip.core (coreOf xk)).hslots = [] → ∃ t, exec (.cancelCopy xk reason (some u)) s = .next t ∧ t.mem = s.mem ∧
        (t.chip.ctx xk).st = .idle ∧ (t.chip.ctx xk).held = [] ∧ (t.chip.ctx xk).unit = none ∧ ∀ j, j ≠ xk → t.chip.ctx j = s.chip.ctx j))

/-- R28, R29, R433 to R440: what the home of a tile header does with a pin, a claim, a release and a publish, by the header as it reads it;
and what the answers make of the copy that asked, its unit and its stream: a line leaves for its home and is written there. A claim of a group
that is won has its home claim the other tiles, in their order, for the copy. The forms of
events and messages are the model's own (log 84); the claims of a group follow log 43, a grant whose source fails its checks log 48. The
header's line holds no uncorrectable error (log 86), and memory is in its canonical form. -/
def Obligations.TileHomeEvents : Prop :=
  ∀ (s : State) (q : Req) (u : URef) (x y z slot : Nat) (expv ver : BitVec 32) (kind : ClaimKind), s.mem.wf = true → s.chip.wr = [] → q.host = false → (s.chip.home q.home).waddrs = [] →
    s.chip.badAt q.pa 128 = false →
    let late := s.now + s.chip.coreTicks (coreOf q.src) 256
    let hd := hdrAt s.env s.chip q
    let from_ := coreNode (coreOf q.src)
    let me := s.chip.ctx q.src
    let out (i : Instr) (P : State → Prop) : Prop := ∃ t, exec i s = .next t ∧ P t
    let header (t : State) : List Byte := hdrAt t.env t.chip q
    let sends (t : State) (l : List Flight) : Prop := t.chip.net = s.chip.net ++ l
    let others (secs : List (W64 × BitVec 32)) : List Flight := secs.zipIdx.map fun p => ⟨q.home, transNode p.1.1, .cmt, 0, .translate
      { src := q.src, part := q.part, vi := q.vi, act := .gclaim u x y z p.1.2 (p.2 + 1) q.home, va := p.1.1, n := 128 }⟩
    let again (i : Instr) : Prop := space q.va = 2 → out i fun t => ∃ c, t.mem = s.mem ∧ sends t [⟨from_, transNode q.va, c, 0, .translate { q with home := 0, pa := 0 }⟩]
    -- pins
    (∀ p h, hdrOk h = true → p < 2 ^ 32 → let v := hVersion h
      (p = 0xFFFFFFFF ∨ p = v → pinResolve h p = .ok (hLiveB h)) ∧
      (p ≠ 0xFFFFFFFF → p ≠ v → p = (v + 2 ^ 32 - 1) % 2 ^ 32 → hShv h = true → hPstate h ≠ 2 → pinResolve h p = .ok (!hLiveB h)) ∧
      (p ≠ 0xFFFFFFFF → p = (v + 2 ^ 32 - 1) % 2 ^ 32 → hShv h = false ∨ hPstate h = 2 → pinResolve h p = .error 0x11) ∧
      (p ≠ 0xFFFFFFFF → p ≠ v → p ≠ (v + 2 ^ 32 - 1) % 2 ^ 32 → pinResolve h p = .error (if (p + 2 ^ 32 - v) % 2 ^ 32 < 2 ^ 31 then 0x12 else 0x11))) ∧
    (∀ h p, hdrOk h = false → p < 2 ^ 32 → let v := hVersion h
      (p = 0xFFFFFFFF ∨ p = v ∨ p = (v + 2 ^ 32 - 1) % 2 ^ 32 ∧ hShv h = true ∧ hPstate h ≠ 2 → pinResolve h p = .error 0x13) ∧
      (p ≠ 0xFFFFFFFF → p = (v + 2 ^ 32 - 1) % 2 ^ 32 → hShv h = false ∨ hPstate h = 2 → pinResolve h p = .error 0x11) ∧
      (p ≠ 0xFFFFFFFF → p ≠ v → p ≠ (v + 2 ^ 32 - 1) % 2 ^ 32 → pinResolve h p = .error (if (p + 2 ^ 32 - v) % 2 ^ 32 < 2 ^ 31 then 0x12 else 0x11))) ∧
    (∀ f, q.act = .rpin ver → pinResolve hd ver.toNat = .ok f → hPins hd f < 65535 → out (.pinRequest q) fun t => header t = hSetPins hd f (hPins hd f + 1) ∧
      sends t [⟨q.home, from_, .rsp, 0, .loadReply q (leBytes 8 (hBuf hd f).toNat) [] (2 * hTlines hd + bn f)⟩]) ∧
    (∀ f, q.act = .pin u slot ver → pinResolve hd ver.toNat = .ok f → hPins hd f < 65535 → out (.pinRequest q) fun t => header t = hSetPins hd f (hPins hd f + 1) ∧
      sends t [⟨q.home, dispNode (dieOf (coreOf q.src)), .rsp, 0, .pinReply q q.home (.pinned (hBuf hd f) f (hTlines hd) q.pa)⟩]) ∧
    (∀ f, pinResolve hd ver.toNat = .ok f → hPins hd f = 65535 →
      (q.act = .rpin ver → out (.pinRequest q) fun t => t.mem = s.mem ∧ sends t [⟨q.home, from_, .rsp, late, .pinRetry q⟩]) ∧
      (q.act = .pin u slot ver → out (.pinRequest q) fun t => t.mem = s.mem ∧ sends t [⟨q.home, from_, .rsp, s.now + 256, .pinRetry q⟩])) ∧
    (∀ code, q.act = .pin u slot ver → pinResolve hd ver.toNat = .error code → out (.pinRequest q) fun t => t.mem = s.mem ∧
      sends t [⟨q.home, dispNode (dieOf (coreOf q.src)), .rsp, 0, .pinReply q q.home (if code = 0x11 then .stalepin else if code = 0x12 then .earlypin else .badhdr)⟩]) ∧
    (∀ l n r, q.act = .pin u slot ver → (s.chip.vi u.vi).findCopy u q.src = some (l, n, r) → r.st = .pinning → r.due.head? = some slot → r.pinId = q.part → again (.pinRetry q)) ∧
    (∀ code, q.act = .rpin ver → pinResolve hd ver.toNat = .error code → out (.pinRequest q) fun t => t.mem = s.mem ∧
      sends t [⟨q.home, from_, .rsp, 0, .loadReply q (leBytes 8 code) [] 0⟩]) ∧
    (q.act = .rpin ver → me.partOut q.op q.part = true → again (.pinRetry q)) ∧
    (∀ f, q.act = .unpin f → out (.claimRelease q) fun t => header t = hSetPins hd f (hPins hd f - 1)) ∧
    -- claims
    (∀ h, hdrOk h = true → let n := (expv - BitVec.ofNat 32 (hVersion h)).toNat
      (hMine h u x y z = true → claimResolve h u x y z expv = (some .won, h)) ∧
      (hClv h = true → hMine h u x y z = false → claimResolve h u x y z expv = (some .lost, h)) ∧
      (hClv h = false → n = 0 → hPstate h = 0 → claimResolve h u x y z expv = (some .won, hClaim h u x y z)) ∧
      (hClv h = false → n ≠ 0 → n < 2 ^ 31 → (claimResolve h u x y z expv).1 = none) ∧
      (hClv h = false → 2 ^ 31 ≤ n → claimResolve h u x y z expv = (some .stale, h))) ∧
    (u.lid < 2 ^ 32 → q.act = .claim kind u x y z expv →
      (hClv hd = true → claimResolve hd u x y z expv = (some .won, hd) →
        (kind = .seal → out (.claimRequest q) fun t => header t = hd ∧ sends t [⟨q.home, from_, .rsp, 0, .claimAnswer q .won⟩]) ∧
        (∀ secs, kind = .group secs → (∀ p ∈ secs, space p.1 = 2) → out (.claimRequest q) fun t => header t = hd ∧
          sends t (⟨q.home, from_, .rsp, 0, .claimAnswer q .won⟩ :: others secs)) ∧
        (kind = .void → out (.claimRequest q) fun t => header t = hRelease hd ∧ sends t [⟨q.home, from_, .rsp, 0, .claimAnswer q .won⟩]) ∧
        (kind = .commit → hPins hd (!hLiveB hd) = 0 → out (.claimRequest q) fun t => header t = setField (setField hd 35 1 0) 32 2 2 ∧
          sends t [⟨q.home, from_, .rsp, 0, .claimAnswer q .won⟩, ⟨q.home, from_, .rsp, 0, .claimAnswer q (.granted 0 (hTlines hd) (hBuf hd (!hLiveB hd)) q.home q.pa)⟩])) ∧
      (∀ d', claimResolve hd u x y z expv = (some .won, d') → hClv hd = false → d'.length = 128 → kind = .seal → out (.claimRequest q) fun t => header t = d' ∧
        sends t [⟨q.home, dispNode (s.chip.origDie u), .cmt, 0, .winNotice u⟩, ⟨q.home, from_, .rsp, 0, .claimAnswer q .won⟩]) ∧
      (∀ d' secs, claimResolve hd u x y z expv = (some .won, d') → hClv hd = false → d'.length = 128 → kind = .group secs → (∀ p ∈ secs, space p.1 = 2) →
        out (.claimRequest q) fun t => header t = d' ∧
        sends t ([⟨q.home, dispNode (s.chip.origDie u), .cmt, 0, .winNotice u⟩, ⟨q.home, from_, .rsp, 0, .claimAnswer q .won⟩] ++ others secs)) ∧
      (∀ d', claimResolve hd u x y z expv = (some .won, d') → hClv hd = false → kind = .void → out (.claimRequest q) fun t => header t = hRelease d' ∧
        sends t [⟨q.home, dispNode (s.chip.origDie u), .cmt, 0, .winNotice u⟩, ⟨q.home, from_, .rsp, 0, .claimAnswer q .won⟩]) ∧
      (∀ a d', claimResolve hd u x y z expv = (some a, d') → a ≠ .won → out (.claimRequest q) fun t => t.mem = s.mem ∧
        sends t [⟨q.home, from_, .rsp, 0, .claimAnswer q a⟩]) ∧
      (∀ d', claimResolve hd u x y z expv = (none, d') → out (.claimRequest q) fun t => t.mem = s.mem ∧ sends t [⟨q.home, from_, .rsp, late, .claimRetry q⟩])) ∧
    (me.pend.id = q.part → again (.claimRetry q)) ∧
    (q.act = .sgrant u x y z slot → hMine hd u x y z = true →
      (hPins hd (!hLiveB hd) = 0 → out (.claimRequest q) fun t => header t = setField (setField hd 35 1 0) 32 2 2 ∧
        sends t [⟨q.home, from_, .rsp, 0, .claimAnswer q (.granted slot (hTlines hd) (hBuf hd (!hLiveB hd)) q.home q.pa)⟩]) ∧
      (hPins hd (!hLiveB hd) ≠ 0 → out (.claimRequest q) fun t => t.mem = s.mem ∧ (t.chip.vi q.vi).ctr.cbusy = (s.chip.vi q.vi).ctr.cbusy + 1 ∧
        sends t [⟨q.home, from_, .rsp, late, .commitBusyRetry q⟩])) ∧
    ((∃ m, me.commit = some m ∧ m.id = q.part) → again (.commitBusyRetry q)) ∧
    (∀ by_, q.act = .gclaim u x y z expv slot by_ →
      (∀ d', claimResolve hd u x y z expv = (some .won, d') → d'.length = 128 → out (.groupClaim q) fun t => header t = d' ∧ sends t [⟨q.home, from_, .rsp, 0, .claimAnswer q .won⟩]) ∧
      ((claimResolve hd u x y z expv).1 ≠ some .won → out (.groupClaim q) fun t => t.mem = s.mem ∧ sends t [⟨q.home, from_, .rsp, 0, .claimAnswer q .groupmiss⟩])) ∧
    (q.act = .unclaim u x y z → hMine hd u x y z = true → out (.claimRelease q) fun t => header t = hRelease hd) ∧
    (q.act = .unclaim u x y z → hMine hd u x y z = false → out (.claimRelease q) fun t => t.mem = s.mem) ∧
    (∀ l n, (s.chip.vi u.vi).launches = [l] → l.lid = u.lid → l.st ≠ .complete → l.units = [n] → n.idx = u.idx → (∀ p ∈ s.chip.dies, p.2.backups = []) →
      (∀ r ∈ n.copies, r.live = true → r.copy = u.copy) → out (.winNotice u) fun t => ∃ m k, (t.chip.vi u.vi).launches = [m] ∧ m.units = [k] ∧ k.sealed = true) ∧
    -- answers, the stream and the publish
    (∀ c, me.unit = some c → me.pend.id = q.part →
      (q.act = .claim .seal u x y z expv → out (.claimAnswer q .won) fun t => t.mem = s.mem ∧ t.chip.ctx q.src = { me with unit := some { c with sealed := true }, pend := {}, wait := .free }) ∧
      (out (.claimAnswer q .lost) fun t => (t.chip.ctx q.src).ending = some (me.ending.getD 0)) ∧
      (out (.claimAnswer q .stale) fun t => (t.chip.ctx q.src).ending = some (me.ending.getD 3)) ∧
      (out (.claimAnswer q .badhdr) fun t => (t.chip.ctx q.src).ending = some (me.ending.getD 0x13)) ∧
      (out (.claimAnswer q .groupmiss) fun t => (t.chip.ctx q.src).ending = some (me.ending.getD 0x14)) ∧
      (∀ m k tl sh h pa, me.commit = some m → m.tiles[slot]? = some k → k.granted = false →
        (s.chip.checkOwn q.src k.src (128 * tl) 128 = none → out (.claimAnswer q (.granted slot tl sh h pa)) fun t => let n := t.chip.ctx q.src
          n.unit = some { c with sealed := true } ∧ ∃ g, n.commit = some g ∧ g.tiles[slot]? = some { k with granted := true, tlines := tl, sh := sh, home := h, pa := pa }) ∧
        (s.chip.checkOwn q.src k.src (128 * tl) 128 ≠ none → q.part ≠ 0 → me.pend.ans = none → out (.claimAnswer q (.granted slot tl sh h pa)) fun t =>
          (t.chip.ctx q.src).commit = none ∧ (t.chip.ctx q.src).pend.ans = some (.refused 6 k.src))) ∧
      (q.part ≠ 0 → me.pend.ans = none → out (.claimAnswer q (.published 0)) fun t => let n := t.chip.ctx q.src
        n.commit = none ∧ n.unit = some { c with published := true } ∧ n.pend.ans = some (.value 0 0))) ∧
    (∀ line m k, q.act = .stream u slot line → q.data = [] → (s.chip.streamNext q.src).any (fun r => r.act == q.act && r.part == q.part) = true → me.commit = some m →
      m.tiles[slot]? = some k → let src := sram (coreOf q.src) (k.src.toNat % 2 ^ 18 + 128 * line)
      (s.chip.badAt src 128 = true → out (.streamLine q false) fun t => t.mem = s.mem ∧ (t.chip.ctx q.src).ending = some (me.ending.getD 0x18)) ∧
      (s.chip.badAt src 128 = false → space q.va = 2 → out (.streamLine q false) fun t => t.mem = s.mem ∧
        (∃ n, (t.chip.ctx q.src).commit = some n ∧ n.tiles[slot]? = some { k with sent := k.sent + 1 }) ∧
        sends t [⟨from_, transNode q.va, .cmt, 0, .translate { q with data := (List.range 128).map fun i => s.mem.read (src + i) }⟩])) ∧
    (∀ line, q.act = .stream u slot line → q.data.length = 128 → q.n = 128 → q.refill = false → nodeIsCore q.home = false → q.home ≠ bridgeNode → (s.chip.home q.home).watches = [] →
      out (.streamLine q false) fun t => ∃ vt, (∀ i < 128, t.mem.read (q.pa + i) = q.data.getD i 0) ∧ sends t [⟨q.home, from_, .rsp, 0, .storeAck q vt⟩]) ∧
    (∀ c m line, q.act = .stream u slot line → me.unit = some c → c.u = u → me.commit = some m → m.id = q.part →
      out (.streamLine q true) fun t => t.mem = s.mem ∧ (t.chip.ctx q.src).ending = some (me.ending.getD 0x18)) ∧
    (q.act = .publish u x y z slot → hMine hd u x y z = true → hPstate hd = 2 → out (.publish q) fun t => header t = hPublish hd ∧
      sends t [⟨q.home, from_, .rsp, 0, .claimAnswer q (.published slot)⟩]) ∧
    (q.act = .publish u x y z slot → hMine hd u x y z = false ∨ hPstate hd ≠ 2 → out (.publish q) fun t => t.mem = s.mem ∧ t.chip.net = s.chip.net) ∧
    (∀ h, h.length = 128 → hVersion (hPublish h) = (hVersion h + 1) % 2 ^ 32 ∧ hLiveB (hPublish h) = !hLiveB h ∧ hShv (hPublish h) = true ∧ hClv (hPublish h) = false ∧
      hPstate (hPublish h) = 0 ∧ ∀ f, hBuf (hPublish h) f = hBuf h f ∧ hPins (hPublish h) f = hPins h f)

/-! ### Traps, stops and saves (16_interrupted) -/

/-- R282, R395 to R401: TRAP and BRK enter the handler, TRAP with the next address in EPC; ERET restores the mode and the PC, and issues one
refused load again with its counter counted; IDLE waits for an event or 65,536 ticks; TLBINV asks the translation homes and waits out the
leases; CTXSV traps on a wrong operand or target, waits for the target's work, and once its image is accepted makes the target IDLE and lists
the save, retiring when the image is visible; CTXLD traps on a wrong address, header or target and for want of tile registers, loads an image
without locks or queued work into an IDLE context, which is then in HALT, or into itself, which keeps its mode; FLTACK without replay entries
resumes at the block's RPC, or traps for an error. Images are written in one step and loaded as logs 55 and 56 say. -/
def Obligations.TrapAndContextInstructions : Prop :=
  ∀ (s : State) (a b : BitVec 5) (code : BitVec 6), s.nextOk →
    let x := s.cx
    let v := x.getX a.toNat
    let w := x.getX b.toNat
    let me := coreNode s.ck
    (s.canRun false {} →
      (∃ t, exec (.trap code) s = .next t ∧ s.keepsRest t ∧ s.after t = x.take false 0x13 (x.pc + 4) (w64 code.toNat)) ∧
      exec (.brk code) s = .next (s.traps 0x12 (w64 code.toNat)) ∧
      (x.priv = true → x.ldPC = none → x.replay = [] → (∀ o ∈ x.ops, o.refused = []) → ∃ t, exec .eret s = .next t ∧ s.keepsRest t ∧
        (s.after t).priv = x.ppriv ∧ (s.after t).pc = x.epc ∧ (s.after t).st = .ready ∧ (∀ n, (s.after t).getX n = x.getX n ∧ (s.after t).getV n = x.getV n ∧
        (s.after t).getK n = x.getK n) ∧ (s.after t).cause = x.cause ∧ (s.after t).epc = x.epc ∧ (s.after t).ppriv = x.ppriv ∧ t.chip.net = s.chip.net) ∧
      (∀ o r, x.priv = true → x.ldPC = none → x.replay = [o] → (∀ o ∈ x.ops, o.refused = []) → o.refused = [r] → o.kind = .load → o.ctr = .ld → x.cnt .ld < 63 →
        space r.p.q.va = 2 → r.p.q.host = false → r.p.q.act = .load →
        ∃ t q, exec .eret s = .next t ∧ s.keepsRest t ∧ (s.after t).pc = x.epc ∧ (s.after t).priv = x.ppriv ∧ (s.after t).replay = [] ∧
        q = { r.p.q with home := 0, pa := 0, refill := false, stale := false } ∧ (s.after t).cnt .ld = x.cnt .ld + 1 ∧
        (s.after t).ops = x.ops ++ [{ o with parts := [r.p], refused := [] }] ∧ t.chip.net = s.chip.net ++ [⟨coreNode (coreOf q.src), transNode q.va, .req, 0, .translate q⟩]) ∧
      (∀ u, x.wait = .idle u →
        (x.idleWake = true ∨ u ≤ s.now → exec .idle s = .next (s.retires fun y => { y with idleWake := false })) ∧
        (x.idleWake = false → s.now < u → exec .idle s = .next (s.waits (.idle u)))) ∧
      ((∀ u, x.wait ≠ .idle u) → ∃ t, exec .idle s = .next t ∧ s.keepsRest t ∧ (s.after t).st = .stall ∧ (s.after t).pc = x.pc ∧
        (s.after t).wait = .idle (s.now + 65536) ∧ (s.after t).idleWake = false ∧ x.sameRegs (s.after t) ∧
        t.chip.net = s.chip.net ++ [⟨0xFFFFF, 0xFFFFF, .rsp, s.now + 65536, .idleTimeout s.chip.cur x.stamp⟩])) ∧
    (s.canRun false { x := [a.toNat, b.toNat] } → x.priv = true →
      (∀ p u, x.pend.kind = .inval → x.pend.ans = some (.value p u) → u + 4100 ≤ s.now → exec (.tlbinv a b) s = .next (s.retires id)) ∧
      (∀ p u, x.pend.kind = .inval → x.pend.ans = some (.value p u) → s.now < u + 4100 → exec (.tlbinv a b) s = .next (s.waits (.time (u + 4100)))) ∧
      (x.pend.kind = .inval → x.pend.ans = none → exec (.tlbinv a b) s = .next (s.waits .answer)) ∧
      (x.pend.kind ≠ .inval → 2 ≤ w.toNat → exec (.tlbinv a b) s = .next (s.traps 0x01 w)) ∧
      (x.pend.kind ≠ .inval → w = 0 → isGlobal v = false → exec (.tlbinv a b) s = .next (s.traps 0x09 v)) ∧
      (∀ l, x.pend.kind ≠ .inval → (w = 0 ∧ isGlobal v = true ∧ l = [hash21 v.toNat]) ∨ (w = 1 ∧ l = List.range 8) → ∃ t, exec (.tlbinv a b) s = .next t ∧ s.keepsRest t ∧
        x.sameRegs (s.after t) ∧ (s.after t).pend.kind = .inval ∧ (s.after t).pend.left = l.length ∧ (s.after t).st = .stall ∧ (s.after t).pc = x.pc ∧
        t.chip.net = s.chip.net ++ l.map fun d => ⟨me, homeNode d, .ctl, 0, .inval d x.vi (w == 1) v (some s.chip.cur)⟩)) ∧
    (s.canRun false { x := [a.toNat], mem := true } → x.priv = true →
      let n := s.ck * 8 + v.toNat % 8
      let y := s.at_.ctx n
      (x.pend.kind = .save → x.pend.t ≤ s.now → exec (.ctxsv a) s = .next (s.retires id)) ∧
      (x.pend.kind = .save → s.now < x.pend.t → exec (.ctxsv a) s = .next (s.waits (.time x.pend.t))) ∧
      (x.pend.kind ≠ .save → bits v.toNat 3 9 ≠ 0 ∨ isGlobal v = false → exec (.ctxsv a) s = .next (s.traps 0x01 v)) ∧
      (x.pend.kind ≠ .save → bits v.toNat 3 9 = 0 → isGlobal v = true → n = s.chip.cur ∨ y.st ≠ .halt ∨ y.vi ≠ x.vi →
        exec (.ctxsv a) s = .next (s.traps 0x09 (w64 (ctxNo n)))) ∧
      (x.pend.kind ≠ .save → bits v.toNat 3 9 = 0 → isGlobal v = true → n ≠ s.chip.cur → y.st = .halt → y.vi = x.vi → s.at_.saveReady n = false →
        exec (.ctxsv a) s = .next (s.waits (.save n))) ∧
      (let id := ((s.chip.core s.ck).saveId + 1) % 65536
       let img := saveImage s.env s.at_ n id
       ∀ c vt, x.pend.kind ≠ .save → bits v.toNat 3 9 = 0 → isGlobal v = true → n ≠ s.chip.cur → y.st = .halt → y.vi = x.vi → s.at_.saveReady n = true → y.tiles = [] →
        writeImage s.env img.1 x.vi s.ck (w64 (v.toNat / 4096 * 4096)) img.2 = (c, none, vt) → (c.core s.ck).hslots = [] → (c.ctx n).held = [] → (c.ctx n).waiting = none →
        c.cur = s.chip.cur → ∃ t z, exec (.ctxsv a) s = .next t ∧ (t.chip.ctx n).st = .idle ∧ (s.after t).st = .stall ∧ (s.after t).pend.kind = .save ∧ (s.after t).pend.t = vt ∧
          (t.chip.core s.ck).saveId = id ∧ (t.chip.core s.ck).saved = (c.core s.ck).saved ++ [z] ∧ z.id = id ∧ z.ctx = n)) ∧
    (s.canRun false { x := [a.toNat], mem := true } → x.priv = true →
      (v.toNat % 4096 ≠ 0 ∨ isGlobal v = false → exec (.ctxld a) s = .next (s.traps 0x01 v)) ∧
      (∀ c h, v.toNat % 4096 = 0 → isGlobal v = true → readImage s.env s.at_ x.vi s.ck v 1 = (c, .ok h) →
        (imageHeader c s.chip.cur h = none → exec (.ctxld a) s = .next (commit s (c.trapHere s.chip.cur 0x01 v))) ∧
        (∀ n sv p m bound, imageHeader c s.chip.cur h = some (n, sv, p, m, bound) →
          let used := (List.range 8).foldl (fun k i => k + (c.ctx (s.ck * 8 + i)).tiles.length) 0
          let need := ((List.range 8).filter (bit bound)).length
          (n ≠ s.chip.cur → (c.ctx n).st ≠ .idle → exec (.ctxld a) s = .next (commit s (c.trapHere s.chip.cur 0x09 (w64 (ctxNo n))))) ∧
          (n = s.chip.cur ∨ (c.ctx n).st = .idle → 0 < need → 8 < used + need → exec (.ctxld a) s = .next (commit s (c.trapHere s.chip.cur 0x0A (w64 2)))) ∧
          (∀ c' d, n = s.chip.cur ∨ (c.ctx n).st = .idle → used + need ≤ 8 → readWhole s.env c x.vi s.ck v bound = (c', .ok d) → sv.c.held = [] → p = 0 → m = 0 →
            ∃ t, exec (.ctxld a) s = .next t ∧ (∀ i < 32, i ≠ 0 → (t.chip.ctx n).getX i = w64 (wordAt d (8 + i))) ∧
              (∀ i < 8, i ≠ 0 → (t.chip.ctx n).getK i = w64 (wordAt d (40 + i))) ∧ (∀ z ∈ (t.chip.core (coreOf n)).saved, z.id ≠ sv.id) ∧
              (n ≠ s.chip.cur → (t.chip.ctx n).st = .halt ∧ (t.chip.ctx n).haltCtl = true) ∧
              (n = s.chip.cur → (s.after t).priv = x.priv ∧ (s.after t).ppriv = bit (wordAt d 48) 1 ∧ (s.after t).ldPC = some (s.after t).epc))))) ∧
    (s.canRun false { x := [a.toNat], mem := true } → permOk v = false ∨ permOk (v + 16511) = false ∨ space (v + 16511) ≠ space v →
      exec (.fltack a) s = .next (s.traps 0x09 v)) ∧
    (s.canRun false { x := [a.toNat], mem := true } → permOk v = true → permOk (v + 16511) = true → space (v + 16511) = space v →
      let off := v.toNat % 2 ^ 18
      let wd (o : Nat) : Nat := leNat ((List.range 8).map fun j => s.spByte (off + o + j))
      let nrep := bits (wd 0x30) 0 8
      let npf := bits (wd 0x30) 8 8
      (v.toNat % 128 ≠ 0 → exec (.fltack a) s = .next (s.traps 0x05 v)) ∧
      (v.toNat % 128 = 0 → s.at_.inRun s.chip.cur v 16512 = false → exec (.fltack a) s = .next (s.traps 0x06 v)) ∧
      (v.toNat % 128 = 0 → s.at_.inRun s.chip.cur v 16512 = true →
        let bad : Prop := wd 0x30 / 2 ^ 16 ≠ 0 ∨ wd 0x20 / 2 ^ 41 ≠ 0 ∨ wd 0x38 / 2 ^ 17 ≠ 0 ∨ 128 < nrep ∨ nrep < npf
        (bad → exec (.fltack a) s = .next (s.traps 0x01 v)) ∧
        (¬ bad → bits (wd 0x38) 0 16 < npf → exec (.fltack a) s = .next (s.waits (.notices off npf))) ∧
        (¬ bad → npf ≤ bits (wd 0x38) 0 16 → nrep = 0 → x.replay = [] → (∀ o ∈ x.ops, o.refused = []) → wd 0x38 / 2 ^ 16 % 2 = 0 → ∃ t, exec (.fltack a) s = .next t ∧
          s.keepsRest t ∧ (∀ n, (s.after t).getX n = if n = 31 then w64 (wd 0x28) else x.getX n) ∧ (s.after t).pc = w64 (wd 0x10) ∧ (s.after t).inUpcall = false ∧
          (s.after t).st = .ready ∧ (s.after t).priv = x.priv ∧ t.chip.net = s.chip.net ∧
          (wd 0x20 / 2 ^ 40 % 2 = 1 → (s.after t).pendPfx = true ∧ (s.after t).pfxsave = w64 (wd 0x20 % 2 ^ 32)) ∧
          (wd 0x20 / 2 ^ 40 % 2 = 0 → (s.after t).pendPfx = x.pendPfx ∧ (s.after t).pfxsave = x.pfxsave)) ∧
        (¬ bad → npf ≤ bits (wd 0x38) 0 16 → nrep = 0 → wd 0x38 / 2 ^ 16 % 2 = 1 → ∃ t, exec (.fltack a) s = .next t ∧ s.keepsRest t ∧
          (s.after t).cause = 0x108 ∧ (s.after t).inUpcall = false ∧ (s.after t).getX 31 = w64 (wd 0x28) ∧ (s.after t).epc = w64 ((w64 (wd 0x10)).toNat / 4 * 4) ∧ (s.after t).tval = w64 (wd 0x18) ∧ (s.after t).priv = true ∧ (s.after t).pc = x.trapvec)))

/-- R105, R111, R171, R372, R374 to R379: a word that does not decode and a failed fetch trap at their PC, a page fault once it is logged,
and a failed fetch at TRAPVEC ends the context; MCHECK of register state is taken at a boundary; the refusal of an operation's only access
is kept with it, one of a stalled instruction is its answer; the context stops for the earliest refusal with a trap, or with an upcall where
it wants one, and the upcall of one refused load writes the block and goes to its handler; a notice reaches its table entry or its block. The
forms of events and messages are the model's own (log 84); a fetch at TRAPVEC is recognised as log 54 says, replay entries follow log 12. -/
def Obligations.FaultEvents : Prop :=
  ∀ (s : State) (xk ck token : Nat) (err : Bool) (tv : W64) (wd : Word) (r : Refused) (p : RPart) (o : Op), s.chip.wr = [] →
    let x := s.chip.ctx xk
    let k := s.chip.core ck
    let me := s.cx
    let out (i : Instr) (P : State → Prop) : Prop := ∃ t, exec i s = .next t ∧ P t
    (me.fmt = none ∨ (∃ f, me.fmt = some f ∧ fmtLegal f = true) → exec (.ill wd) s = .next (s.traps 0x01 (w64 wd.toNat))) ∧
    (∀ f, me.fmt = some f → fmtLegal f = false → out (.ill wd) fun t => s.keepsRest t ∧ (s.after t).cause = 1 ∧ (s.after t).tval = w64 f.toNat ∧
      (s.after t).epc = w64 (me.pc.toNat / 4 * 4)) ∧
    (∀ code, code ≠ 8 → (me.inTrap && me.priv && me.pc == me.trapvec) = false → exec (.fetchFault code tv) s = .next (s.traps code tv)) ∧
    (∀ code, code ≠ 8 → (me.inTrap && me.priv && me.pc == me.trapvec) = true → out (.fetchFault code tv) fun t => s.keepsRest t ∧ (s.after t).ending = some (me.ending.getD 0x16)) ∧
    (let d := s.chip.die (hash21 tv.toNat)
     (d.fbcount < 1024 → (me.inTrap && me.priv && me.pc == me.trapvec) = false → out (.fetchFault 8 tv) fun t => (s.after t).cause = 8 ∧ (s.after t).tval = tv ∧
       (s.after t).priv = true ∧ (s.after t).pc = me.trapvec ∧ (t.chip.die (hash21 tv.toNat)).fbcount = d.fbcount + 1) ∧
     (1024 ≤ d.fbcount → out (.fetchFault 8 tv) fun t => (s.after t).st = .stall ∧ (s.after t).wait = .time (s.now + s.chip.coreTicks s.ck 1024) ∧
       (t.chip.die (hash21 tv.toNat)).ovf = true ∧ t.mem = s.mem)) ∧
    (x.st = .idle ∨ x.ending ≠ none → out (.mcheck xk) fun t => t.mem = s.mem ∧ t.chip = s.chip) ∧
    (x.st = .ready → x.mop = none → x.pend.kind ≠ .save → x.ending = none → x.stopReq = false → out (.mcheck xk) fun t => t.mem = s.mem ∧ t.chip.ctx xk = x.take false 0x10 x.pc 0) ∧
    -- a refusal arrives, and the stop for it
    (Act.engine r.q.act = false → r.q.src = xk → r.q.op ≠ 0 → x.ops = [o] → o.id = r.q.op → o.parts = [⟨r.q.part, 0, r.q⟩] → o.refused = [] → x.replay = [] →
      (s.chip.core (nodeCore r.q.home)).heldLoads = [] → out (.receiverFault xk (some r)) fun t => t.mem = s.mem ∧
      (t.chip.ctx xk).ops = [] ∧ (∃ z, (t.chip.ctx xk).replay = [z] ∧ z.id = o.id ∧ z.dst = o.dst ∧ z.parts = [] ∧ z.refused = [⟨⟨r.q.part, 0, r.q⟩, r.code, r.token, false⟩]) ∧
      (r.code = 8 → r.token ≠ 0 → (s.chip.core (coreOf xk)).notices.length < 64 → (t.chip.core (coreOf xk)).notices = (s.chip.core (coreOf xk)).notices ++ [⟨r.token, ctxNo xk, none, none⟩])) ∧
    (Act.engine r.q.act = false → r.q.op = 0 → x.pend.id = r.q.part → r.q.part ≠ 0 → x.pend.ans = none → out (.receiverFault xk (some r)) fun t => t.mem = s.mem ∧
      (t.chip.ctx xk).pend.ans = some (.refused r.code r.q.va)) ∧
    (x.earliest = some p → (p.code ≠ 8 ∨ s.chip.wantsUpcall xk = false) → x.stopReq = false → out (.receiverFault xk none) fun t => t.mem = s.mem ∧
      t.chip.ctx xk = x.tellAll.take true p.code x.pc p.p.q.va) ∧
    (x.earliest = some p → p.code = 8 → s.chip.wantsUpcall xk = true → x.stopReq = false → out (.receiverFault xk none) fun t => t.mem = s.mem ∧
      t.chip.ctx xk = { x with upcallDue := true }) ∧
    (∀ bl, s.chip.upcallBlock xk = some bl → x.earliest = some p → p.code ≠ 8 ∨ s.chip.wantsUpcall xk = false → x.stopReq = false → out (.upcall xk) fun t => t.mem = s.mem ∧
      t.chip.ctx xk = { x.tellAll.take true p.code x.pc p.p.q.va with upcallDue := false }) ∧
    (∀ bl, s.chip.upcallBlock xk = some bl → x.replay = [o] → x.ops = [] → o.kind = .load → o.refused = [p] → p.told = false → p.code = 8 → s.chip.wantsUpcall xk = true → s.chip.protect xk bl 16512 = none → x.stopReq = false →
      x.pendPfx = false → (s.chip.home (coreNode (coreOf xk))).waddrs = [] → (∀ n ∈ (s.chip.core (coreOf xk)).notices, n.got = none) → s.mem.wf = true → out (.upcall xk) fun t =>
        let y := t.chip.ctx xk
        let at_ (i : Nat) : Nat := leNat ((List.range 8).map fun j => t.mem.read (sram (coreOf xk) bl + i + j))
        y.getX 31 = x.upcallvec ∧ (∀ n, n ≠ 31 → y.getX n = x.getX n) ∧ y.upcallvec = 0 ∧ y.inUpcall = true ∧ y.pendPfx = false ∧ y.priv = x.priv ∧ y.replay = [] ∧
        y.pc = w64 (leNat ((List.range 8).map fun j => s.mem.read (sram (coreOf xk) bl + j))) ∧
        at_ 0x10 = x.pc.toNat ∧ at_ 0x18 = p.p.q.va.toNat ∧
        at_ 0x20 = (match x.fmt with | some w => 2 ^ 40 + w.toNat | none => 0) + 8 * 2 ^ 32 ∧ at_ 0x28 = (x.getX 31).toNat ∧
        at_ 0x30 = 257 ∧ at_ 0x38 = 0 ∧ at_ 0x80 = p.token % 2 ^ 32 + 8 * 2 ^ 32 ∧
        at_ 0x88 = p.p.q.va.toNat ∧ y.pfxsave = (match x.fmt with | some w => w64 w.toNat | none => x.pfxsave)) ∧
    ((∀ n ∈ k.notices, n.token ≠ token) → out (.notice ck token err) fun t => t.mem = s.mem ∧ t.chip.cores = s.chip.cores) ∧
    (∀ c, k.notices = [⟨token, c, none, none⟩] → out (.notice ck token err) fun t => t.mem = s.mem ∧ (t.chip.core ck).notices = [⟨token, c, none, some err⟩]) ∧
    (∀ c bl, k.notices = [⟨token, c, some bl, none⟩] → (s.chip.home (coreNode ck)).waddrs = [] → s.mem.wf = true →
      let z := sram ck bl
      let w (st : State) (i : Nat) : Nat := leNat ((List.range 8).map fun j => st.mem.read (z + i + j))
      let n := w s 8 % 32
      (k.wt.get ({} : WTask) n).armed = false → out (.notice ck token err) fun t => (t.chip.core ck).notices = [] ∧ w t 0x38 % 65536 = (w s 0x38 + 1) % 65536 ∧
        (err = true → w t 0x38 / 65536 % 2 = 1) ∧ (err = false → w t 0x38 / 65536 = w s 0x38 / 65536) ∧ (t.chip.core ck).ec.get 0 n = min (k.ec.get 0 n + 1) (2 ^ 32 - 1) ∧ ∀ q, q < z + 0x38 ∨ z + 0x40 ≤ q → t.mem.read q = s.mem.read q)

/-- R83, R160, R385, R388, R392, R398: HALT and HALTALL stop contexts at a boundary and report status 0, 1 or, for RESUME of a context that
is not in HALT, 2; RESUME continues one at EPC unless another halt is in force; TLBCMD starts an invalidation unless one is under way; INVAL
drops the cached translations of its home and the owner's lines, and counts the answer; a CMAP swap asks both cores to stop and at its end
exchanges their map entries; a new split is taken unless it is 3, and takes effect once the die is empty, with every line full and the L1s
empty. The forms of events and messages are the model's own (log 84); statuses follow log 57, lines at a swap log 58, the split log 59,
PENDPFX log 37. -/
def Obligations.StopAndSwapEvents : Prop :=
  ∀ (s : State) (die core ctx vi : Nat) (v : W64), s.chip.wr = [] → ctx < 8 →
    let d := s.chip.die die
    let xk := (die * 768 + core) * 8 + ctx
    let standing (z : Ctx) : Prop := (z.st = .ready ∨ z.st = .stall) ∧ z.mop = none ∧ z.hasRefused = false ∧ z.upcallDue = false ∧ z.hbudgetDue s.now = false ∧ z.repair = none
    let x := s.chip.ctx xk
    let out (i : Instr) (P : State → Prop) : Prop := ∃ t, exec i s = .next t ∧ P t
    let status (t : State) (n : Nat) : Prop := (t.chip.die die).ctxstatus = n ∧ (t.chip.die die).ctxPend = 0
    (d.ctxWait = false →
      (768 ≤ core ∨ x.st = .idle ∨ x.st = .halt → out (.halt die core ctx) fun t => status t 1 ∧ t.chip.ctxs = s.chip.ctxs ∧ t.mem = s.mem) ∧
      (core < 768 → standing x → x.pc.toNat % 4 = 0 → s.chip.hopping (coreOf xk) = false → out (.halt die core ctx) fun t => let y := t.chip.ctx xk
        status t 0 ∧ t.mem = s.mem ∧ y.st = .halt ∧ y.haltCtl = true ∧ y.epc = w64 (x.pc.toNat / 4 * 4) ∧ y.pc = x.pc ∧ (∀ n, y.getX n = x.getX n) ∧ y.priv = x.priv ∧
        (x.priv = true → x.shadow = none → ∃ h, y.shadow = some h ∧ h.cause = x.cause ∧ h.epc = x.epc ∧ h.tval = x.tval ∧ h.ppriv = x.ppriv)) ∧
      (core < 768 → x.st = .ready ∨ x.st = .stall → x.mop ≠ none → out (.halt die core ctx) fun t => (t.chip.die die).ctxWait = true ∧
        t.chip.ctx xk = { x with haltCtl := true, stopReq := true })) ∧
    (d.ctxWait = true → x.st = .idle ∨ x.st = .halt → out (.halt die core ctx) fun t => status t 0 ∧ (t.chip.die die).ctxWait = false) ∧
    (core < 768 → d.ctxWait = false → s.chip.hopping (die * 768 + core) = false → (∀ i < 8, standing (s.chip.ctx ((die * 768 + core) * 8 + i))) → out (.haltAll die core) fun t => status t 0 ∧ t.mem = s.mem ∧
      ∀ i < 8, (t.chip.ctx ((die * 768 + core) * 8 + i)).st = .halt ∧ (t.chip.ctx ((die * 768 + core) * 8 + i)).haltCtl = true) ∧
    (core < 768 → d.ctxWait = true → (∀ i < 8, (s.chip.ctx ((die * 768 + core) * 8 + i)).stopped = true) → out (.haltAll die core) fun t =>
      status t 0 ∧ (t.chip.die die).ctxWait = false ∧ t.chip.ctxs = s.chip.ctxs) ∧
    (768 ≤ core ∨ x.st ≠ .halt → out (.resume die core ctx) fun t => status t 2 ∧ t.chip.ctxs = s.chip.ctxs ∧ t.mem = s.mem) ∧
    (core < 768 → x.st = .halt → x.haltPwr = false → x.haltSwap = false → x.waiting = none → x.pend.kind ≠ .waddr → x.replayDue = false →
      out (.resume die core ctx) fun t => status t 0 ∧ t.mem = s.mem ∧
      t.chip.ctx xk = { x with haltCtl := false, st := x.was, pc := x.epc, budgetAt := s.now, perCycle := s.chip.coreTicks (coreOf xk) 1, stamp := x.stamp + 1, replayDue := false }) ∧
    (core < 768 → x.st = .halt → x.haltPwr = true ∨ x.haltSwap = true → out (.resume die core ctx) fun t => status t 0 ∧ t.chip.ctx xk = { x with haltCtl := false }) ∧
    ((s.chip.vi vi).tlbActive s.now = false → out (.tlbcmd vi v) fun t => (t.chip.vi vi).tlbBusy = true ∧ t.mem = s.mem ∧
      (v.toNat / 2 ^ 63 = 0 → (t.chip.vi vi).tlbLeft = 1 ∧ t.chip.net = s.chip.net ++ [⟨tanNode, homeNode (hash21 (v.toNat % 2 ^ 52)), .ctl, 0, .inval (hash21 (v.toNat % 2 ^ 52)) vi false (w64 (v.toNat % 2 ^ 52)) none⟩]) ∧
      (v.toNat / 2 ^ 63 = 1 → (t.chip.vi vi).tlbLeft = 8)) ∧
    ((s.chip.vi vi).tlbActive s.now = true → out (.tlbcmd vi v) fun t => t = s) ∧
    ((∀ p ∈ s.chip.cores, p.2.l1 = []) → (∀ f ∈ s.chip.net, ∀ w, f.ev ≠ .writeBack w) → ∀ all,
      let gone (t : State) : Prop := ∀ y, y ∈ t.chip.tlb ↔ y ∈ s.chip.tlb ∧ ¬ (y.vi = vi ∧ (if all then hash21 (y.page * 65536) = die else y.page / 32 = v.toNat % 2 ^ 50 / 2 ^ 21))
      (out (.inval die vi all v none) fun t => t.mem = s.mem ∧ gone t ∧ (t.chip.vi vi).tlbLeft = (s.chip.vi vi).tlbLeft - 1 ∧ (t.chip.vi vi).tlbT = max (s.chip.vi vi).tlbT s.now) ∧
      (x.pend.kind = .inval → 2 ≤ x.pend.left → out (.inval die vi all v (some xk)) fun t => t.mem = s.mem ∧ gone t ∧ (t.chip.ctx xk).pend.ans = none ∧
        (t.chip.ctx xk).pend.left = x.pend.left - 1 ∧ (t.chip.ctx xk).pend.t = max x.pend.t s.now) ∧
      (x.pend.kind = .inval → x.pend.left = 1 → out (.inval die vi all v (some xk)) fun t => t.mem = s.mem ∧ gone t ∧ (t.chip.ctx xk).pend.ans = some (.value 0 (max x.pend.t s.now)))) ∧
    (∀ l, s.chip.cores = [(0, { l1 := [l] })] → l.vi = vi → l.kind = .owned true → l.va.toNat / 2 ^ 21 = v.toNat / 2 ^ 21 → s.chip.net = [] → l.data.length = 128 → s.mem.wf = true →
      out (.inval die vi false v none) fun t => (t.chip.core 0).l1 = [] ∧ ∀ i < 128, t.mem.read (l.pa + i) = l.data.getD i 0) ∧
    (let a := bits v.toNat 8 2 * 192 + bits v.toNat 0 8
     let b := bits v.toNat 24 2 * 192 + bits v.toNat 16 8
     (d.swap = none → a ≠ b → bits v.toNat 0 8 ≤ 191 → bits v.toNat 16 8 ≤ 191 → out (.cmapswp die v) fun t => (t.chip.die die).swap = some ⟨a, b⟩ ∧ t.mem = s.mem ∧
        (t.chip.die die).cmap = d.cmap ∧ ∀ c i, (c = a ∨ c = b) → i < 8 → let z := s.chip.ctx ((die * 768 + c) * 8 + i)
          standing z → s.chip.hopping (die * 768 + c) = false → (t.chip.ctx ((die * 768 + c) * 8 + i)).st = .halt ∧ (t.chip.ctx ((die * 768 + c) * 8 + i)).haltSwap = true) ∧
     (d.swap ≠ none ∨ a = b ∨ 191 < bits v.toNat 0 8 ∨ 191 < bits v.toNat 16 8 → out (.cmapswp die v) fun t => t = s)) ∧
    (∀ w, d.swap = some w → d.swapNext = [] → s.chip.swapReady die = true → w.a ≠ w.b → out (.swapTransferDone die) fun t => (t.chip.die die).swap = none ∧
      (t.chip.die die).cmap.get w.a w.a = d.cmap.get w.b w.b ∧ (t.chip.die die).cmap.get w.b w.b = d.cmap.get w.a w.a ∧ ∀ c, c ≠ w.a → c ≠ w.b → (t.chip.die die).cmap.get c c = d.cmap.get c c) ∧
    (v.toNat % 4 ≠ 3 → out (.srsplit die v) fun t => t.mem = s.mem ∧ t.chip.die die = { d with splitNew := v.toNat % 4, splitPend := true }) ∧
    (v.toNat % 4 = 3 → out (.srsplit die v) fun t => t = s) ∧
    (s.chip.splitReady die = true → out (.splitEffect die) fun t => (t.chip.die die).split = d.splitNew ∧ (t.chip.die die).splitPend = false ∧ t.chip.ctxs = s.chip.ctxs ∧
      ∀ k, dieOf k = die → (t.chip.core k).empty = [] ∧ (t.chip.core k).l1 = []) ∧
    (s.chip.splitReady die = false → out (.splitEffect die) fun t => t = s)

/-! ### Memory traffic: translation homes, homes of lines, the L1 and the copy engine (06_fed_memory, 07_copy_engine) -/

/-- R163 to R177, R180, R188 to R190, R210, R216, R297 to R299, R382, R383: a translation home refuses a load without permission, forwards it
to host or peer memory or to the line's home, classifies an untouched page, holds a load to a PRIVATE page of another core, logs a fault, or
asks for a retry where the buffer is full; a home performs a load or a store, a load of a scratchpad once its lines are full; replies and
acknowledgements reach the core; leased lines expire; dirty lines are written back; private pages are flushed and become SHARED; a scope miss
widens LDACQ and STREL; FBACK frees an entry; handles are updated and word waits sent again. The forms of events and messages are the model's
own (log 84); a home may use translations read before (log 21), which line leaves a full slice or L1 is free (logs 22, 23), and a line
written under another interface's key loses its other bytes (R76). -/
def Obligations.MemoryEvents : Prop :=
  ∀ (s : State) (q : Req) (l : Leaf), s.chip.wr = [] → q.host = false → q.src < 49152 →
    let c := s.chip
    let from_ := coreNode (coreOf q.src)
    let h := transNode q.va
    let die := hash21 q.va.toNat
    let d := c.die die
    let x := c.ctx q.src
    let ck := coreOf q.src
    let out (i : Instr) (P : State → Prop) : Prop := ∃ t, exec i s = .next t ∧ P t
    let sends (t : State) (m : List Flight) : Prop := t.chip.net = s.chip.net ++ m
    let word (st : State) (a : Nat) : Nat := leNat ((List.range 8).map fun j => st.mem.read (a + j))
    let pa := l.ppn + q.va.toNat % 2 ^ l.lg
    let ownKey (v a n : Nat) : Prop := ∀ j < n, c.tags.get 0 ((a + j) / 128) = 0 ∨ c.tags.get 0 ((a + j) / 128) = v + 1
    -- the translation home
    let alone : Prop := ∀ f ∈ c.net, ∀ p, f.ev = .translate p → p.src = q.src → p.op ≠ q.op
    (∀ r, alone → d.reclass = [r] → r.vi = q.vi → r.page.toNat ≤ q.va.toNat → q.va.toNat < r.page.toNat + r.size → q.act = .load → ∀ i, i = .translate q ∨ i = .faultRetry q →
      out i fun t => t.mem = s.mem ∧ t.chip.net = c.net ∧ (t.chip.die die).reclass = [{ r with reqs := r.reqs ++ [q] }]) ∧
    (alone → d.reclass = [] → q.act = .load → ∀ i, i = .translate q ∨ i = .faultRetry q →
      (walk s.env c q.vi q.va = .ok l → bit l.w0 3 = false → out i fun t => t.mem = s.mem ∧ sends t [⟨h, from_, .rsp, 0, .receiverFault q.src (some ⟨q, 9, 0⟩)⟩]) ∧
      (walk s.env c q.vi q.va = .ok l → bit l.w0 3 = true → l.tgt ≠ 0 → c.linkGone (extHost (l.ext (q.va.toNat % 2 ^ l.lg))) = true → out i fun t => t.mem = s.mem ∧
        ∃ r, r.va = q.va ∧ sends t [⟨h, from_, .rsp, 0, .receiverFault q.src (some ⟨r, 0x14, 0⟩)⟩]) ∧
      (walk s.env c q.vi q.va = .ok l → bit l.w0 3 = true → l.tgt ≠ 0 → c.linkGone (extHost (l.ext (q.va.toNat % 2 ^ l.lg))) = false → out i fun t => t.mem = s.mem ∧
        sends t [⟨from_, bridgeNode, .req, 0, .loadRequest { q with home := bridgeNode, pa := l.ext (q.va.toNat % 2 ^ l.lg), lease := 0, refill := false, perm := l.perm }⟩]) ∧
      (walk s.env c q.vi q.va = .ok l → bit l.w0 3 = true → l.tgt = 0 → l.pmode = 0 ∨ l.pmode = 1 → l.cls = 2 → out i fun t => t.mem = s.mem ∧
        sends t [⟨from_, sliceOf c l pa, .req, 0, .loadRequest { q with home := sliceOf c l pa, pa := pa, lease := l.lease, refill := false, perm := l.perm }⟩]) ∧
      (walk s.env c q.vi q.va = .ok l → bit l.w0 3 = true → l.tgt = 0 → l.pmode = 0 ∨ l.pmode = 1 → l.cls = 0 → q.cached = true → c.tlb = [] → s.mem.wf = true → out i fun t =>
        bits (word t (l.at_ + 8)) 32 2 = 1 ∧ bits (word t (l.at_ + 8)) 34 13 = ownerField ck ∧ bits (word t (l.at_ + 8)) 0 32 = bits l.w1 0 32 ∧
        (∀ p, p < l.at_ + 8 ∨ l.at_ + 16 ≤ p → t.mem.read p = s.mem.read p) ∧ ∃ r, r.refill = true ∧ r.pa = pa ∧ sends t [⟨from_, r.home, .req, 0, .loadRequest r⟩]) ∧
      (walk s.env c q.vi q.va = .ok l → bit l.w0 3 = true → l.tgt = 0 → l.pmode = 0 ∨ l.pmode = 1 → l.cls = 1 → q.cached = false ∨ l.owner ≠ ck → out i fun t => t.mem = s.mem ∧
        ∃ p n, (t.chip.die die).reclass = [⟨q.vi, p, n, l.at_, [q], none⟩] ∧ sends t [⟨h, coreNode l.owner, .req, 0, .flush l.owner q.vi p n die⟩]) ∧
      (∀ g, walk s.env c q.vi q.va = .error g → d.fbcount < 1024 → out i fun t => (t.chip.die die).fbcount = d.fbcount + 1 ∧
        ∃ k, k / 2 ^ 29 = die ∧ sends t [⟨h, from_, .rsp, 0, .receiverFault q.src (some ⟨q, 8, k⟩)⟩]) ∧
      (∀ g, walk s.env c q.vi q.va = .error g → 1024 ≤ d.fbcount → out i fun t => t.mem = s.mem ∧ (t.chip.die die).ovf = true ∧
        t.chip.net = ⟨retryFrom q, h, .req, s.now + c.reqTicks q 1024, .faultRetry q⟩ :: c.net)) ∧
    -- loads and stores at their homes
    (q.act = .load → nodeIsCore q.home = false → c.badAt (q.pa / 128 * 128) 128 = true → out (.loadRequest q) fun t => t.mem = s.mem ∧
      sends t [⟨q.home, from_, .rsp, 0, .receiverFault q.src (some ⟨q, 0x10, 0⟩)⟩]) ∧
    (q.act = .load → 0x400 ≤ nodeEp q.home → nodeEp q.home < 0x600 → q.refill = false → c.badAt (q.pa / 128 * 128) 128 = false → out (.loadRequest q) fun t => t.mem = s.mem ∧
      (q.cached = true → sends t [⟨q.home, from_, .rsp, 0, .loadReply q (c.homeRead s.env q.vi q.pa q.n) (c.homeRead s.env q.vi (q.pa / 128 * 128) 128) (s.now + q.lease)⟩] ∧
        s.now + q.lease ≤ (t.chip.home q.home).lmaxOf (q.pa / 128) ∧
        ((c.home q.home).lmax.length < 1024 → (t.chip.home q.home).lmaxOf (q.pa / 128) = max ((c.home q.home).lmaxOf (q.pa / 128)) (s.now + q.lease))) ∧
      (q.cached = false → sends t [⟨q.home, from_, .rsp, 0, .loadReply q (c.homeRead s.env q.vi q.pa q.n) [] 0⟩])) ∧
    (q.act = .load → nodeIsCore q.home = true → c.remoteOk q q.n = none → c.badAt q.pa q.n = true → out (.loadRequest q) fun t => t.mem = s.mem ∧
      sends t [⟨q.home, from_, .rsp, 0, .receiverFault q.src (some ⟨q, 0x10, 0⟩)⟩]) ∧
    (q.act = .load → nodeIsCore q.home = true → c.remoteOk q q.n = none → c.badAt q.pa q.n = false →
      (c.groupOf q = [(q.part, nodeCore q.home, q.pa - sram (nodeCore q.home) 0, q.n)] → (c.core (nodeCore q.home)).fullOver (q.pa - sram (nodeCore q.home) 0) q.n = true →
        out (.loadRequest q) fun t => t.mem = s.mem ∧
        sends t [⟨q.home, from_, .rsp, 0, .loadReply q ((List.range q.n).map fun j => s.mem.read (q.pa + j)) [] 0⟩]) ∧
      (c.groupFull q = false → out (.loadRequest q) fun t => t.mem = s.mem ∧ t.chip.net = c.net ∧
        (t.chip.core (nodeCore q.home)).heldLoads = (c.core (nodeCore q.home)).heldLoads ++ [q])) ∧
    (∀ p ∈ c.groupOf q, (c.core p.2.1).fullOver p.2.2.1 p.2.2.2 = false → c.groupFull q = false) ∧
    (∀ code, q.act = .load → nodeIsCore q.home = true → c.remoteOk q q.n = some code → out (.loadRequest q) fun t => t.mem = s.mem ∧
      sends t [⟨q.home, from_, .rsp, 0, .receiverFault q.src (some ⟨q, code, 0⟩)⟩]) ∧
    (∀ o r sx n v, q.act = .load → x.ops = [o] → o.id = q.op → o.parts = [⟨q.part, 0, q⟩] → o.refused = [] → o.dst = .x r n sx → n = 1 ∨ n = 2 ∨ n = 4 ∨ n = 8 → q.refill = false → r ≠ 0 →
      out (.loadReply q v [] 0) fun t => t.mem = s.mem ∧ (t.chip.ctx q.src).ops = [] ∧
        (t.chip.ctx q.src).getX r = (if sx then (BitVec.ofNat (8 * n) (leNat v)).signExtend 64 else BitVec.ofNat 64 (leNat v % 2 ^ (8 * n))) ∧
        ∀ j, j ≠ r → (t.chip.ctx q.src).getX j = x.getX j) ∧
    (∀ v f e, q.act = .load → x.ops = [] → q.refill = false → f ≠ [] → s.now < e → c.storesOut ck q.vi q.va = false → out (.loadReply q v f e) fun t =>
      t.mem = s.mem ∧ (⟨q.vi, lineOf q.va, q.home, q.pa / 128 * 128, .leased e, f, q.perm⟩ : L1Line) ∈ (t.chip.core ck).l1) ∧
    (q.act = .store → q.refill = false → nodeIsCore q.home = false → q.home ≠ bridgeNode → 768 ≤ nodeEp q.home → (c.home q.home).watches = [] → (c.home q.home).waddrs = [] → (c.home q.home).lmax.length < 1024 → c.net = [] →
      s.mem.wf = true → ownKey q.vi q.pa q.data.length → out (.storeRequest q) fun t =>
      (∀ j, j < q.data.length → t.mem.read (q.pa + j) = q.data.getD j 0) ∧ (∀ p, p < q.pa ∨ q.pa + q.data.length ≤ p → t.mem.read p = s.mem.read p) ∧
      sends t [⟨q.home, from_, .rsp, 0, .storeAck q (max ((c.home q.home).lmaxOf (q.pa / 128)) s.now + 4)⟩]) ∧
    (∀ code, q.act = .store → q.refill = false → nodeIsCore q.home = true → c.remoteOk q q.n = some code → out (.storeRequest q) fun t => t.mem = s.mem ∧
      sends t [⟨q.home, from_, .rsp, 0, .receiverFault q.src (some ⟨q, code, 0⟩)⟩]) ∧
    (q.act = .store → q.refill = false → nodeIsCore q.home = true → c.remoteOk q q.n = none → sram (nodeCore q.home) 0 ≤ q.pa → (c.home (coreNode (nodeCore q.home))).waddrs = [] →
      s.mem.wf = true → out (.storeRequest q) fun t =>
      (∀ j, j < q.data.length → t.mem.read (q.pa + j) = q.data.getD j 0) ∧ (∀ p, p < q.pa ∨ q.pa + q.data.length ≤ p → t.mem.read p = s.mem.read p) ∧
      sends t [⟨q.home, from_, .rsp, 0, .storeAck q s.now⟩]) ∧
    (∀ o vt, q.act = .store → q.op ≠ 0 → q.home ≠ bridgeNode → x.ops = [o] → o.id = q.op → o.parts = [⟨q.part, 0, q⟩] → o.refused = [] → o.dst = .none → o.vt = 0 → out (.storeAck q vt) fun t =>
      t.mem = s.mem ∧ t.chip.ctx q.src = { x with ops := [], vismax := max x.vismax vt } ∧
      ∀ m e, (c.core ck).l1 = [m] → m.kind = .leased e → m.vi = q.vi → m.va = lineOf q.va →
        (t.chip.storesOut ck q.vi q.va = false → (t.chip.core ck).l1 = [m.put q.va q.data]) ∧ (t.chip.storesOut ck q.vi q.va = true → (t.chip.core ck).l1 = [])) ∧
    (∀ k vi va, out (.leaseExpiry k vi va) fun t => t.mem = s.mem ∧ ∀ m, m ∈ (t.chip.core k).l1 ↔ m ∈ (c.core k).l1 ∧ ¬(m.vi = vi ∧ m.va = va ∧ ∃ e, m.kind = .leased e ∧ e ≤ s.now)) ∧
    -- write-backs, flushes, scope misses, acknowledged faults
    (∀ w : WriteBack, (c.home w.home).watches = [] → (c.home w.home).waddrs = [] → s.mem.wf = true → ownKey w.vi w.pa w.data.length → out (.writeBack w) fun t => (∀ j, j < w.data.length → t.mem.read (w.pa + j) = w.data.getD j 0) ∧
      (∀ p, p < w.pa ∨ w.pa + w.data.length ≤ p → t.mem.read p = s.mem.read p) ∧ ∃ r, r.part = w.serial ∧ sends t [⟨w.home, coreNode w.ck, .rsp, 0, .storeAck r s.now⟩]) ∧
    (∀ k vi page size dd, (c.home (coreNode k)).waddrs = [] → (c.core k).wbs = [] → (c.core k).flushing = [] → c.net = [] →
      ((∀ m ∈ (c.core k).l1, inPage vi page size m = true → m.kind ≠ .owned true) → out (.flush k vi page size dd) fun t => t.mem = s.mem ∧
        sends t [⟨coreNode k, homeNode dd, .rsp, 0, .flushAck dd vi ⟨page, false⟩⟩] ∧ ∀ m ∈ (t.chip.core k).l1, inPage vi page size m = true → ∀ b, m.kind ≠ .owned b) ∧
      (∀ m, (c.core k).l1 = [m] → inPage vi page size m = true → m.kind = .owned true → out (.flush k vi page size dd) fun t => t.mem = s.mem ∧ (t.chip.core k).l1 = [] ∧
        (t.chip.core k).flushing = [⟨vi, page, size, dd, false⟩] ∧ ∃ w : WriteBack, w.pa = m.pa ∧ w.data = m.data ∧ w.ck = k ∧ sends t [⟨coreNode k, m.home, .wrb, 0, .writeBack w⟩])) ∧
    (∀ (r : Reclass) late, d.reclass = [r] → r.vi = q.vi → r.reqs = [] → bits (word s (r.leaf + 8)) 32 2 = 1 → s.mem.wf = true → out (.flushAck die q.vi ⟨r.page, late⟩) fun t => (t.chip.die die).reclass = [] ∧
      bits (word t (r.leaf + 8)) 32 2 = 2 ∧ bits (word t (r.leaf + 8)) 0 32 = bits (word s (r.leaf + 8)) 0 32) ∧
    (∀ n, q.act = .ldacq n → space q.va = 2 → out (.scopeMiss q) fun t => t.mem = s.mem ∧ (t.chip.vi q.vi).ctr.scopemiss = (c.vi q.vi).ctr.scopemiss + 1 ∧
      sends t [⟨from_, h, .req, 0, .translate { q with act := .ldacq (smallest ck q.home q.pa), home := 0, pa := 0 }⟩]) ∧
    (∀ n v, q.act = .strel n v → out (.scopeMiss q) fun t => t.mem = s.mem ∧ t.chip.net = c.net ∧
      (t.chip.core ck).repairs = (c.core ck).repairs ++ [{ q with act := .strel (smallest ck q.home q.pa) v, home := 0, pa := 0 }]) ∧
    (∀ v i f k, d.fbents = [(i, f)] → f.valid = true → f.token = bits v.toNat 0 32 → f.ck = some k → s.mem.wf = true → out (.fback die v) fun t =>
      (t.chip.die die).fbcount = d.fbcount - 1 ∧ word t (bits d.fbbase.toNat 15 25 * 2 ^ 15 + 32 * i + 8) / 2 ^ 63 = 0 ∧
      sends t [⟨homeNode die, coreNode k, .ctl, 0, .notice k f.token (bit v.toNat 32)⟩]) ∧
    (∀ v, (∀ p ∈ d.fbents, p.2.valid = false ∨ p.2.token ≠ bits v.toNat 0 32) → out (.fback die v) fun t => t = s) ∧
    -- buffer handles and word waits
    (∀ k v, handleAct c q.act (w64 (leNat q.data)) q.src = (k, some v) → k.wr = [] → out (.handleUpdate q) fun t => t.mem = s.mem ∧
      t.chip.net = k.net ++ [⟨q.home, from_, .rsp, 0, .loadReply q (leBytes 8 v.toNat) [] 0⟩]) ∧
    (∀ k, q.act = .hgive k ∨ q.act = .hrev → handleAct c q.act (w64 (leNat q.data)) q.src = (c, none) → out (.handleUpdate q) fun t => t.mem = s.mem ∧
      sends t [⟨q.home, from_, .rsp, 0, .receiverFault q.src (some ⟨q, 7, 0⟩)⟩]) ∧
    (∀ v, q.act = .waddr v → x.pend.id = q.part → space q.va = 2 → out (.waddrRetry q) fun t => t.mem = s.mem ∧ sends t [⟨from_, h, .req, 0, .translate { q with home := 0, pa := 0 }⟩])

/-- R194, R199, R200, R202 to R207, R211: the engine begins a queued copy of a context that goes on once the context's earlier stores are performed,
with the status of its check; a step of the copy reads source bytes, its own scratchpad's at once and others by a request, or writes the
bytes read and the fill, into the own window at once, marking the line full with its last byte, and elsewhere by a request; a row that a stride
takes to a forbidden address stops it; the answers are noted; a conditional copy of one row is written where the version word is equal and not where it differs; a copy whose payload is over ends
with its status, at once or with its completion word, and leaves cp. The steps of a copy are the model's (log 27); a refused store holds a
copy as log 96 says. -/
def Obligations.CopyEvents : Prop :=
  ∀ (s : State) (ck : Nat) (e : CopyE) (k off : Nat), s.chip.wr = [] → (s.chip.core ck).copies = [e] → coreOf e.ctx = ck → s.mem.wf = true →
    let c := s.chip
    let x := c.ctx e.ctx
    let out (i : Instr) (P : State → Prop) : Prop := ∃ t, exec i s = .next t ∧ P t
    let sends (t : State) (m : List Flight) : Prop := t.chip.net = c.net ++ m
    let quiet : Prop := (c.home (coreNode ck)).waddrs = [] ∧ (c.core ck).heldLoads = []
    let stepping : Prop := e.running = true ∧ e.out = [] ∧ e.word = false ∧ e.moved = false ∧ (e.r.ven = true → e.row < e.r.rows)
    let a := e.r.src + w64 e.row * e.r.stra + w64 (e.off + e.buf.length)
    let len := min (e.valid - e.buf.length) (128 - a.toNat % 128)
    let d := e.buf ++ List.replicate (e.len - e.valid) e.r.fill
    let past (f : CopyE) : Prop := f.buf = [] ∧ f.running = true ∧ f.status = e.status ∧ (if e.off + e.len < e.r.rlen then f.row = e.row ∧ f.off = e.off + e.len else f.row = e.row + 1 ∧ f.off = 0)
    -- the start
    (e.running = false → c.endReason e.ctx = none → c.copyHeld e = false → out (.copyBegin ck) fun t => t.mem = s.mem ∧
      (t.chip.core ck).copies = [{ e with running := true, status := copyRemote c e, moved := decide (copyRemote c e ≠ 0) }]) ∧
    (e.running = true ∨ c.endReason e.ctx ≠ none ∨ c.copyHeld e = true → out (.copyBegin ck) fun t => t = s) ∧
    (∀ i ∈ e.after, ∀ o ∈ x.ops, o.id = i → c.copyHeld e = true) ∧
    -- reading
    let readable : Prop := c.runCheck e e.r.src a len = none
    let writable : Prop := c.runCheck e e.r.dst e.dstAt d.length = none
    (permOk a = false → c.runCheck e e.r.src a len = some 0x09) ∧ (space e.r.src = 2 → space a = 1 → c.spParse a len = none → readable → False) ∧
    (∀ code, stepping → e.buf.length < e.valid → c.runCheck e e.r.src a len = some code → e.touched = [] → e.status = 0 →
      out (.copyComplete ck e.op) fun t => t.mem = s.mem ∧ (t.chip.core ck).copies = [{ e with moved := true, status := code }]) ∧
    (stepping → e.buf.length < e.valid → readable → space a = 1 → c.spParse a len = some (ck, off) → c.badAt (sram ck off) len = false → out (.copyComplete ck e.op) fun t => t.mem = s.mem ∧
      t.chip.net = c.net ∧ (t.chip.core ck).copies = [{ e with buf := e.buf ++ (List.range len).map fun i => s.mem.read (sram ck off + i) }]) ∧
    (stepping → e.buf.length < e.valid → readable → space a = 1 → c.spParse a len = some (ck, off) → c.badAt (sram ck off) len = true → e.touched = [] → e.status = 0 →
      out (.copyComplete ck e.op) fun t => t.mem = s.mem ∧ (t.chip.core ck).copies = [{ e with moved := true, status := 0x10 }]) ∧
    (stepping → e.buf.length < e.valid → readable → space a = 1 → c.spParse a len = some (k, off) → k ≠ ck → (∃ o, c.spParse a 1 = some (k, o)) → out (.copyComplete ck e.op) fun t => t.mem = s.mem ∧
      ∃ r, r.act = .cpread none ∧ r.va = a ∧ r.n = len ∧ r.op = e.op ∧ r.src = e.ctx ∧ sends t [⟨coreNode ck, coreNode k, .req, 0, .loadRequest r⟩] ∧
        (t.chip.core ck).copies = [{ e with out := [r.part] }]) ∧
    (stepping → e.buf.length < e.valid → readable → space a = 2 → out (.copyComplete ck e.op) fun t => t.mem = s.mem ∧
      ∃ r, r.act = .cpread (e.r.srcDev c.group) ∧ r.va = a ∧ r.n = len ∧ r.op = e.op ∧ r.src = e.ctx ∧ sends t [⟨coreNode ck, transNode a, .req, 0, .translate r⟩] ∧
        (t.chip.core ck).copies = [{ e with out := [r.part] }]) ∧
    (∀ q b f ex, q.act = .cpread b → q.src = e.ctx → q.op = e.op → q.refill = false → e.moved = false → ∀ v, out (.loadReply q v f ex) fun t => t.mem = s.mem ∧
      (t.chip.core ck).copies = [{ e with out := e.out.filter (· ≠ q.part), buf := e.buf ++ v }]) ∧
    -- writing
    (stepping → e.r.ven = false → e.buf.length = e.valid → writable → e.r.cols = 0 → space e.dstAt = 1 → c.spParse e.dstAt d.length = some (ck, off) → quiet → out (.copyComplete ck e.op) fun t =>
      (∀ i < d.length, t.mem.read (sram ck off + i) = d.getD i 0) ∧ (∀ p, p < sram ck off ∨ sram ck off + d.length ≤ p → t.mem.read p = s.mem.read p) ∧
      (e.last = true → (t.chip.core ck).fullOver (off / 128 * 128) 128 = true) ∧ (e.last = false → (t.chip.core ck).empty = (c.core ck).empty) ∧
      ∃ f, (t.chip.core ck).copies = [f] ∧ past f ∧ f.moved = decide (e.r.rows ≤ f.row)) ∧
    (stepping → e.r.ven = false → e.buf.length = e.valid → writable → e.r.cols = 0 → space e.dstAt = 1 → c.spParse e.dstAt d.length = some (k, off) → k ≠ ck → k < 6144 → off < 2 ^ 18 →
      out (.copyComplete ck e.op) fun t => t.mem = s.mem ∧ ∃ r f, r.act = .cpwrite none e.last ∧ r.data = d ∧ r.va = windowAddr k off ∧ r.op = e.op ∧
        (c.spParse (windowAddr k off) 1 = some (k, off) → sends t [⟨coreNode ck, coreNode k, .wrb, 0, .storeRequest r⟩]) ∧ (t.chip.core ck).copies = [f] ∧ past f ∧ f.out = [r.part]) ∧
    (stepping → e.r.ven = false → e.buf.length = e.valid → writable → space e.dstAt = 2 → out (.copyComplete ck e.op) fun t => t.mem = s.mem ∧
      ∃ r f, r.act = .cpwrite (e.r.dstDev c.group) false ∧ r.data = d ∧ r.va = e.dstAt ∧ r.op = e.op ∧ sends t [⟨coreNode ck, transNode e.dstAt, .wrb, 0, .translate r⟩] ∧
        (t.chip.core ck).copies = [f] ∧ past f ∧ f.out = [r.part]) ∧
    (∀ q b l vt, q.act = .cpwrite b l → q.src = e.ctx → q.op = e.op → q.home ≠ bridgeNode → e.word = false → e.moved = false ∨ e.touched = [] → out (.storeAck q vt) fun t => t.mem = s.mem ∧
      (t.chip.core ck).copies = [{ e with out := e.out.filter (· ≠ q.part), vt := max e.vt vt }]) ∧
    (∀ r, Act.engine r.q.act = true → (∀ u i l, r.q.act ≠ .stream u i l) → r.q.src = e.ctx → r.q.op = e.op → e.word = false → e.touched = [] → e.status = 0 → out (.receiverFault e.ctx (some r)) fun t =>
      t.mem = s.mem ∧ (t.chip.core ck).copies = [{ e with moved := true, status := r.code, out := e.out.filter (· ≠ r.q.part) }]) ∧
    -- the conditional copy
    (∀ o, e.running = true → e.out = [] → e.moved = false → e.r.ven = true → e.r.rows = 1 → e.row = 1 → e.data.length = e.r.rlen → c.spParse (e.r.dst - 128) 4 = some (k, o) →
      c.spParse e.r.dst e.r.rlen = some (k, off) → c.isOff k = false → c.badAt (sram k o) 4 = false → (c.home (coreNode k)).waddrs = [] → (c.core k).heldLoads = [] →
      let w := leNat ((List.range 4).map fun i => s.mem.read (sram k o + i))
      (w = bits e.r.ver.toNat 0 32 → out (.copyConditionalWrite ck e.op) fun t => (∀ i < e.r.rlen, t.mem.read (sram k off + i) = e.data.getD i 0) ∧
        (∀ p, p < sram k off ∨ sram k off + e.r.rlen ≤ p → t.mem.read p = s.mem.read p) ∧ (t.chip.core k).fullOver off e.r.rlen = true ∧
        (t.chip.core ck).copies = [{ e with moved := true, vt := s.now }]) ∧
      (w ≠ bits e.r.ver.toNat 0 32 → out (.copyConditionalWrite ck e.op) fun t => t.mem = s.mem ∧ (t.chip.core ck).copies = [{ e with moved := true, status := 2 }])) ∧
    -- the end
    (e.running = true → e.out = [] → e.word = false → e.moved = true → e.vt ≤ s.now → c.copyHeld e = false →
      let ended (t : State) (vt : Nat) : Prop := (t.chip.core ck).copies = [] ∧ (t.chip.ctx e.ctx).ops = x.ops.filter (·.id ≠ e.op) ∧ (t.chip.ctx e.ctx).vismax = max x.vismax vt ∧
        ∀ z, x.cpStat.find? (·.id == e.id) = some z → (t.chip.ctx e.ctx).cpStat.find? (·.id == e.id) = some { z with state := 3, status := e.status }
      (e.r.done = 0 → out (.copyComplete ck e.op) fun t => t.mem = s.mem ∧ ended t e.vt) ∧
      (e.r.done ≠ 0 → space e.r.done = 1 → c.spParse e.r.done 8 = some (ck, off) → (c.home (coreNode ck)).waddrs = [] → e.id < 2 ^ 16 → e.status < 256 → e.r.clipped < 2 ^ 39 →
        out (.copyComplete ck e.op) fun t => ended t s.now ∧ leNat ((List.range 8).map fun i => t.mem.read (sram ck off + i)) = e.id * 2 ^ 48 + e.status * 2 ^ 40 + 2 ^ 39 + e.r.clipped) ∧
      (space e.r.done = 2 → out (.copyComplete ck e.op) fun t => t.mem = s.mem ∧ ∃ r f, r.act = .cpwrite none false ∧ r.data = e.wordBytes ∧ r.va = e.r.done ∧ r.op = e.op ∧
        sends t [⟨coreNode ck, transNode e.r.done, .wrb, 0, .translate r⟩] ∧ (t.chip.core ck).copies = [f] ∧ f.word = true ∧ f.status = e.status)) ∧
    (∀ q b l vt, q.act = .cpwrite b l → q.src = e.ctx → q.op = e.op → q.home ≠ bridgeNode → e.word = true → out (.storeAck q vt) fun t => t.mem = s.mem ∧
      (t.chip.core ck).copies = [] ∧ (t.chip.ctx e.ctx).ops = x.ops.filter (·.id ≠ e.op) ∧ (t.chip.ctx e.ctx).vismax = max x.vismax (max e.vt vt))

/-! ### The host's side: pointers, queues, entries, records, interfaces and registers (02_host) -/

/-- R7, R8, R34, R36 to R43, R76, R100, R101, R164, R169, R352, R358, R385, R409: a pointer write is forwarded behind the host's earlier
writes; pointers are checked; QCTL and VICTL enable and disable with their checks, and a disabled interface loses what it has bound (log 89);
a key is installed and, once nothing of the interface is left, destroyed; a write of a register with behaviour of its own becomes its event,
the named ones without take their RW fields, and a reserved offset takes nothing. The forms of events and messages are the model's own
(log 84); pointer writes wait as log 64 says, registers take their fields as logs 76, 77 and 83 say. -/
def Obligations.HostRegisterEvents : Prop :=
  ∀ (s : State) (vi slot n k : Nat) (v : W64), s.chip.wr = [] →
    let c := s.chip
    let q := c.queue n
    let i := c.vi vi
    let out (i : Instr) (P : State → Prop) : Prop := ∃ t, exec i s = .next t ∧ t.mem = s.mem ∧ P t
    let same (i : Instr) : Prop := exec i s = .next s
    -- pointers
    (c.hostWrites = true → (out (.tailw vi slot v) fun t => t.chip.inputs = .tailw vi slot v :: c.inputs) ∧ (out (.cheadw vi slot v) fun t => t.chip.inputs = .cheadw vi slot v :: c.inputs)) ∧
    (c.hostWrites = false → c.slotQueue vi slot = some n →
      (out (.tailw vi slot v) fun t => t.chip.net = c.net ++ [⟨bridgeNode, dispNode (n / 512), .ctl, 0, .qtail n (v.toNat % 2 ^ 32)⟩]) ∧
      (out (.cheadw vi slot v) fun t => t.chip.net = c.net ++ [⟨bridgeNode, dispNode (n / 512), .ctl, 0, .qchead n (v.toNat % 2 ^ 32)⟩])) ∧
    (c.hostWrites = false → c.slotQueue vi slot = none → same (.tailw vi slot v) ∧ same (.cheadw vi slot v)) ∧
    (let new := BitVec.ofNat 32 k
     let fits : Prop := (new - q.qhead).toNat ≤ 2 ^ (q.qsz + 6) ∧ (new - q.qtail).toNat < 2 ^ 31
     (q.en = true → fits → out (.qtail n k) fun t => t.chip.queue n = { q with qtail := new }) ∧
     (q.en = true → ¬ fits → out (.qtail n k) fun t => (t.chip.queue n).en = false ∧ (t.chip.queue n).err = 0x29 ∧ (t.chip.queue n).qtail = q.qtail) ∧
     (q.en = false → out (.qtail n k) fun t => t.chip.queue n = q) ∧
     (q.en = true ∨ q.run = true → out (.qchead n k) fun t => t.chip.queue n = { q with chead := new }) ∧
     (q.en = false → q.run = false → out (.qchead n k) fun t => t.chip.queue n = q)) ∧
    -- QCTL, VICTL
    (q.en = false → q.run = false → bit v.toNat 0 = true →
      let ok : Prop := bits v.toNat 16 4 ≤ 10 ∧ bits v.toNat 12 4 ≤ 10 ∧ q.qbase.toNat % 64 = 0 ∧ q.cbase.toNat % 16 = 0
      (ok → out (.qctl n v) fun t => t.chip.queue n = { q with csz := bits v.toNat 16 4, qsz := bits v.toNat 12 4, pmax := bits v.toNat 8 3, vi := bits v.toNat 2 6, en := true, run := true, err := 0, qhead := 0, qtail := 0, ctail := 0, chead := 0, fence := none, vis := 0, stores := [] }) ∧
      (¬ ok → out (.qctl n v) fun t => (t.chip.queue n).en = false ∧ (t.chip.queue n).run = false ∧ (t.chip.queue n).err = 0x2A)) ∧
    (q.en = false → q.run = true → out (.qctl n v) fun t => t.chip.queue n = q) ∧
    (q.en = true → bit v.toNat 0 = true → out (.qctl n v) fun t => t.chip.queue n = q) ∧
    (q.en = true → bit v.toNat 0 = false → out (.qctl n v) fun t => (t.chip.queue n).en = false ∧ (t.chip.queue n).vi = q.vi ∧ (t.chip.queue n).owed = q.owed ∧
      (q.owed ≠ [] ∨ (∃ tg, q.fence = some (tg, true)) → (t.chip.queue n).run = true) ∧
      (q.owed = [] → q.open_ = [] → q.hm = none → q.fence = none → (t.chip.queue n).run = false)) ∧
    (i.en = false → i.quiesced = true → bit v.toNat 0 = true → out (.victl vi v) fun t => t.chip.vi vi = { i with en := true, quiesced := false, keyWait := true, ctr := {} } ∧
      t.chip.net = c.net ++ [⟨tanNode, tanNode, .mgt, 0, .keyInstall vi⟩]) ∧
    (i.en = false → i.quiesced = false → bit v.toNat 0 = true → same (.victl vi v)) ∧
    (i.en = true → bit v.toNat 0 = true → same (.victl vi v)) ∧
    (i.en = true → bit v.toNat 0 = false → i.launches = [] → i.levels = [] → out (.victl vi v) fun t => t.chip.vi vi = { i with en := false } ∧
      (∀ p ∈ t.chip.cores, (∀ m ∈ p.2.mbs, m.2.vi ≠ vi) ∧ ∀ w ∈ p.2.wt, (w.2.armed = true → w.2.vi ≠ vi) ∧ ∀ f ∈ w.2.fired, f.vi ≠ vi) ∧ ∀ h ∈ t.chip.homes, ∀ w ∈ h.2.watches, w.vi ≠ vi) ∧
    (i.keyWait = true → out (.keyInstall vi) fun t => (t.chip.vi vi).keyv = true ∧ (t.chip.vi vi).keyWait = false ∧ (t.chip.vi vi).keySlots = List.replicate 16 (i.gen + 1)) ∧
    (i.keyWait = false → out (.keyInstall vi) fun t => t.chip.vi vi = i) ∧
    (c.tornDown vi = true → s.mem.wf = true → ∃ t, exec (.teardownComplete vi) s = .next t ∧ (t.chip.vi vi).keyv = false ∧ (t.chip.vi vi).quiesced = true ∧ (∀ p ∈ t.chip.tags, p.2 ≠ vi + 1) ∧
      ∀ p, c.tags.all (fun g => g.2 != vi + 1 || g.1 != p / 128) = true → t.mem.read p = s.mem.read p) ∧
    (c.tornDown vi = false → same (.teardownComplete vi)) ∧
    -- registers
    (∀ off ev, hostEvent off v = some ev → out (.registerWrite off v) fun t => t.chip.inputs = ev :: c.inputs) ∧
    (n < 4096 → (out (.registerWrite (64 * n + 8) v) fun t => t.chip.queue n = { q with qbase := w64 (v.toNat % 2 ^ 52) }) ∧
      (out (.registerWrite (64 * n + 16) v) fun t => t.chip.queue n = { q with cbase := w64 (v.toNat % 2 ^ 52) }) ∧
      hostEvent (64 * n) v = some (.qctl n v)) ∧
    (vi < 64 → hostEvent (0x40000 + 8 * vi) v = some (.victl vi v) ∧
      (out (.registerWrite (0x42000 + 64 * vi + 8) v) fun t => t.chip.vi vi = { i with level := v.toInt }) ∧
      (out (.registerWrite (0x42000 + 64 * vi + 16) v) fun t => t.chip.vi vi = { i with cap := v.toNat % 2 ^ 48 }) ∧
      (out (.registerWrite (0x42000 + 64 * vi + 24) v) fun t => t.chip.vi vi = { i with fill := v.toNat % 2 ^ 32 }) ∧
      (out (.registerWrite (0x42000 + 64 * vi + 32) v) fun t => t.chip.vi vi = { i with drrw := v.toNat % 256 }) ∧
      (out (.registerWrite (0x43000 + 16 * vi) v) fun t => t.chip.vi vi = { i with ptbase := w64 (bits v.toNat 15 25 * 2 ^ 15) }) ∧
      (out (.registerWrite (0x43000 + 16 * vi + 8) v) fun t => t.chip.vi vi = { i with pten := bit v.toNat 0 }) ∧
      (out (.registerWrite (0x43A00 + 8 * vi) v) fun t => t.chip.vi vi = { i with vitrap := w64 (bits v.toNat 2 50 * 4) })) ∧
    (n < 16 → out (.registerWrite (0x43400 + 8 * n) v) fun t => t.chip.slset.get 0 n = w64 (v.toNat % 2 ^ 12)) ∧
    (k < 8 → let d := c.die k
      (d.ctxPend = 0 → 1 ≤ bits v.toNat 24 3 → bits v.toNat 24 3 ≤ 3 → out (.registerWrite (0x44100 + 8 * k) v) fun t => (t.chip.die k).ctxPend = bits v.toNat 24 3) ∧
      (d.ctxPend ≠ 0 → out (.registerWrite (0x44100 + 8 * k) v) fun t => t.chip.die k = d) ∧
      (out (.registerWrite (0x43800 + 64 * k) v) fun t => t.chip.die k = { d with avsel := w64 (v.toNat % 2 ^ 14) }) ∧
      (d.avpend = 0 → 1 ≤ v.toNat % 8 → v.toNat % 8 ≤ 5 → out (.registerWrite (0x43800 + 64 * k + 8) v) fun t => t.chip.die k = { d with avpend := v.toNat % 8 }) ∧
      (out (.registerWrite (0x5D000 + 32 * k + 16) v) fun t => t.chip.die k = { d with dwell := v.toNat % 256 }) ∧
      (out (.registerWrite (0x5D000 + 32 * k) v) fun t => t.chip.die k = if rampOk v d.ramp1 then { d with ramp0 := v } else d)) ∧
    (same (.registerWrite 0xF0000 v) ∧ hostRead s.env c 0xF0000 = 0 ∧ same (.registerWrite (0x40204) v))

/-- R15 to R18, R41, R43 to R58, R361, R461: the engine takes the entry at QHEAD when its queue is ready; an entry that cannot be read stops
the queue; one with a reserved bit, an unknown OPC or a bad field is rejected with its code; a LAUNCH is rejected for its record, descriptor,
geometry, size, closed or foreign graph, and the only launch of its interface, of no graph, phase or job, is accepted; GRAPH closes a level,
or is rejected for its first record; CANCEL cancels a level; HMSG goes to its core; QFENCE waits for every earlier entry and its record
for their work; records are written in order, and one that cannot be written stops the queue and discards the others; a host message starts
on an idle context, waits in one of four slots, or is offered again after 256 ticks; a read of a page that its owner is giving back waits
(R173). The forms of events and messages are the model's own (log 84); VALUE of a rejection follows log 60, the record's VI log 61, host
messages log 63, a full ring log 81. -/
def Obligations.QueueEvents : Prop :=
  ∀ (s : State) (n : Nat) (d u : List Byte) (m m' m2 : Chip), s.chip.wr = [] →
    let c := s.chip
    let q := c.queue n
    let i := c.vi q.vi
    let f := field d
    let tag := eTag d
    let out (i : Instr) (P : State → Queue → Prop) : Prop := ∃ t, exec i s = .next t ∧ P t (t.chip.queue n)
    let rec_ (opc st v : Nat) : Owed := { opc := opc, status := st, tag := tag, value := w64 v }
    let ownKey (a n : Nat) (x : Chip) : Prop := ∀ j < n, x.tags.get 0 ((a + j) / 128) = 0 ∨ x.tags.get 0 ((a + j) / 128) = q.vi + 1
    (c.queueReady n = true → c.entryAt s.env n = none → c.engineHeld s.env q.vi q.entryVa 0 = false → out (.entryUnreadable n) fun t k =>
      t.mem = s.mem ∧ k.en = false ∧ k.err = 0x22 ∧ k.qhead = q.qhead) ∧
    (c.queueReady n = true → c.engineHeld s.env q.vi q.entryVa 0 = true → out (.entryUnreadable n) fun t k => t.mem = s.mem ∧ k = q) ∧
    -- `m`: the package after the entry has been read (a translation it needed may have been noted, a private page shared)
    (c.queueReady n = true → c.entryAt s.env n = some (m, d) →
      let took := m.modQueue n fun k => { k with qhead := k.qhead + 1 }
      let taken (i : Instr) (P : State → Queue → Prop) : Prop := out i fun t k => t.mem = (commit s m).mem ∧ k.qhead = q.qhead + 1 ∧ P t k
      let rejects (i : Instr) (st v : Nat) : Prop := taken i fun _ k => k.owed = q.owed ++ [rec_ (eOpc d) st v] ∧ k.open_ = q.open_
      let plain (fs : List (Nat × Nat)) : Prop := onlyFields d (eHead ++ fs) = true
      let graphF := [(64, 52), (160, 32), (144, 16), (136, 2), (128, 1)]
      let hmsgF := [(64, 52), (138, 3), (136, 2), (128, 8), (192, 64), (256, 64)]
      (eOpc d = 0 ∨ 5 < eOpc d → rejects (.badop n) 0x20 0) ∧
      (eOpc d = 1 → ¬ plain [(64, 52)] → rejects (.qLaunch n) 0x21 0) ∧
      (eOpc d = 2 → ¬ plain graphF → rejects (.qGraph n) 0x21 0) ∧
      (eOpc d = 3 → ¬ plain [(160, 32), (136, 2)] → rejects (.qCancel n) 0x21 (f 160 32)) ∧
      (eOpc d = 4 → ¬ plain hmsgF → rejects (.hmsgEntry n) 0x21 0) ∧
      (eOpc d = 5 → ¬ plain [] → rejects (.qfence n) 0x21 0) ∧
      -- LAUNCH
      (eOpc d = 1 → plain [(64, 52)] → f 64 52 % 128 ≠ 0 → rejects (.qLaunch n) 0x27 0) ∧
      (eOpc d = 1 → plain [(64, 52)] → f 64 52 % 128 = 0 →
        (took.enginePlace s.env q.vi (w64 (f 64 52)) 0 = none → took.engineHeld s.env q.vi (w64 (f 64 52)) 0 = false → rejects (.qLaunch n) 0x22 0) ∧
        (took.engineHeld s.env q.vi (w64 (f 64 52)) 0 = true → out (.qLaunch n) fun t k => t.mem = (commit s m).mem ∧ k.qhead = q.qhead ∧ k.owed = q.owed ∧ k.open_ = q.open_) ∧
        (∀ h pa, took.enginePlace s.env q.vi (w64 (f 64 52)) 0 = some (m', h, pa) →
          (m'.badAt pa 128 = true → rejects (.qLaunch n) 0x22 0) ∧
          (m'.badAt pa 128 = false → h ≠ bridgeNode →
            let r := m'.homeRead s.env q.vi pa 128
            let g := field r
            let total := (g 64 16 + 1) * (g 80 16 + 1) * (g 96 16 + 1)
            (∀ code, launchCheck i r = some code → rejects (.qLaunch n) code (g 0 32)) ∧
            (launchCheck i r = none → m'.engineRead s.env q.vi (w64 (g 256 52)) 64 = none → m'.engineHeld s.env q.vi (w64 (g 256 52)) 0 = false → rejects (.qLaunch n) 0x22 (g 0 32)) ∧
            (launchCheck i r = none → m'.engineRead s.env q.vi (w64 (g 256 52)) 64 = some (m2, u) →
              let big : Prop := field u 116 1 = 1 ∧ 36864 < total
              let flat : Prop := bits (g 576 64) 0 12 = 0 ∨ bits (g 576 64) 12 12 = 0
              let shut : Bool := i.closedLevel 1 (g 32 32) || i.closedLevel 2 (g 512 32) || i.closedLevel 3 (g 544 32)
              (big → rejects (.qLaunch n) 0x08 (g 0 32)) ∧
              (¬ big → flat → rejects (.qLaunch n) 0x09 (g 0 32)) ∧
              (¬ big → ¬ flat → shut = true → rejects (.qLaunch n) 0x23 (g 0 32)) ∧
              (¬ big → ¬ flat → shut = false → (∃ y ∈ i.levels, y.kind = 1 ∧ y.id = g 32 32 ∧ y.complete = false ∧ y.queue ≠ n) → rejects (.qLaunch n) 0x28 (g 0 32)) ∧
              (¬ big → ¬ flat → i.launches = [] → i.levels = [] → g 32 32 = 0 → g 512 32 = 0 → g 544 32 = 0 → g 148 3 = 0 → (m2.home h).watches = [] → (m2.home h).waddrs = [] →
                (commit s m2).mem.wf = true → ownKey (pa + 19) 1 m2 → out (.qLaunch n) fun t k => ∃ l, (t.chip.vi q.vi).launches = [l] ∧ l.lid = g 0 32 ∧ l.gx = g 64 16 ∧ l.gy = g 80 16 ∧
                l.gz = g 96 16 ∧ l.ntile = g 128 4 ∧ l.spkib = g 132 9 ∧ l.prio = min (g 144 3) q.pmax ∧ l.codebase = w64 (g 192 52) ∧ l.udbase = w64 (g 256 52) ∧
                l.tilebase = w64 (g 320 52) ∧ l.geom = w64 (g 576 64) ∧ l.gang = decide (field u 116 1 = 1) ∧ l.st = .eligible ∧ l.retired = 0 ∧ k.qhead = q.qhead + 1 ∧
                k.open_ = q.open_ ++ [(q.vi, .launch l.order l.lid tag (eCpl d))] ∧
                t.mem.read (pa + 19) = BitVec.ofNat 8 q.vi ∧ ∀ p, p ≠ pa + 19 → t.mem.read p = (commit s m2).mem.read p))))) ∧
      -- GRAPH and CANCEL
      (eOpc d = 2 → plain graphF →
        (f 136 2 = 0 ∨ (f 144 16 ≠ 0 ∧ f 136 2 ≠ 1) ∨ (f 136 2 ≠ 1 ∧ f 128 1 = 0) ∨ (f 144 16 ≠ 0 ∧ f 64 52 % 128 ≠ 0) → rejects (.qGraph n) 0x27 0) ∧
        (∀ code lid, code ≠ heldCode → f 144 16 ≠ 0 → f 136 2 = 1 → f 64 52 % 128 = 0 → took.acceptLaunch s.env n (w64 (f 64 52)) (some (f 160 32)) = .error (code, lid) → rejects (.qGraph n) code 0) ∧
        (f 144 16 = 0 → f 136 2 = 1 → f 128 1 = 0 → i.liveLevel 1 (f 160 32) = true → eCpl d = true → rejects (.qGraph n) 0 (f 160 32)) ∧
        (f 144 16 = 0 → f 136 2 = 1 → f 128 1 = 0 → i.liveLevel 1 (f 160 32) = true → eCpl d = false → taken (.qGraph n) fun _ k => k.owed = q.owed ∧ k.open_ = q.open_) ∧
        (f 144 16 = 0 → f 136 2 ≠ 0 → f 136 2 = 1 ∨ f 128 1 = 1 → i.liveLevel (f 136 2) (f 160 32) = false → rejects (.qGraph n) 0x24 0) ∧
        (∀ y, f 144 16 = 0 → f 136 2 ≠ 0 → f 128 1 = 1 → i.levels = [y] → y.kind = f 136 2 → y.id = f 160 32 → y.complete = false → y.done ≠ y.members → taken (.qGraph n) fun t k =>
          (t.chip.vi q.vi).levels = [{ y with closed := true }] ∧ k.open_ = q.open_ ++ [(q.vi, .level y.kind y.id tag (eCpl d))])) ∧
      (eOpc d = 3 → plain [(160, 32), (136, 2)] →
        (i.liveLevel (f 136 2) (f 160 32) = false → i.knows (f 136 2) (f 160 32) = false → rejects (.qCancel n) 0x24 (f 160 32)) ∧
        (i.liveLevel (f 136 2) (f 160 32) = false → i.knows (f 136 2) (f 160 32) = true → eCpl d = true → rejects (.qCancel n) 0 (f 160 32)) ∧
        (∀ y, f 136 2 ≠ 0 → i.levels = [y] → i.launches = [] → y.kind = f 136 2 → y.id = f 160 32 → y.complete = false → y.done ≠ y.members → taken (.qCancel n) fun t k =>
          (t.chip.vi q.vi).levels = [{ y with closed := true, cancelled := true }] ∧ k.open_ = q.open_ ++ [(q.vi, .cancel y.kind y.id tag (eCpl d))])) ∧
      -- HMSG and QFENCE
      (eOpc d = 4 → plain hmsgF →
        (f 64 52 % 4 ≠ 0 ∨ isGlobal (w64 (f 64 52)) = false → rejects (.hmsgEntry n) 0x27 0) ∧
        (f 64 52 % 4 = 0 → isGlobal (w64 (f 64 52)) = true → 191 < f 128 8 → rejects (.hmsgEntry n) 0x25 0) ∧
        (f 64 52 % 4 = 0 → isGlobal (w64 (f 64 52)) = true → f 128 8 ≤ 191 → taken (.hmsgEntry n) fun t k => ∃ z, k.hm = some z ∧ z.q = n ∧ z.vi = q.vi ∧
          z.ck = f 138 3 * 768 + f 136 2 * 192 + f 128 8 ∧ z.pc = w64 (f 64 52) ∧ z.a0 = w64 (f 192 64) ∧ z.a1 = w64 (f 256 64) ∧
          t.chip.net = m.net ++ [⟨dispNode (n / 512), coreNode z.ck, .msg, 0, .hmsgDelivery z⟩])) ∧
      (eOpc d = 5 → plain [] →
        (q.open_ = [] → eCpl d = true → taken (.qfence n) fun _ k => k.fence = none ∧ k.owed = q.owed ++ [{ opc := 5, status := 0, tag := tag, value := 0, at_ := q.vis, stores := q.stores }]) ∧
        (q.open_ = [] → eCpl d = false → taken (.qfence n) fun _ k => k.fence = none ∧ k.owed = q.owed) ∧
        (q.open_ ≠ [] → taken (.qfence n) fun _ k => k.fence = some (tag, eCpl d) ∧ k.owed = q.owed))) ∧
    (∀ tg, q.fence = some (tg, true) → q.open_ = [] → out (.qfence n) fun t k => t.mem = s.mem ∧ k.fence = none ∧
      k.owed = q.owed ++ [{ opc := 5, status := 0, tag := tg, value := 0, at_ := q.vis, stores := q.stores }]) ∧
    (q.fence ≠ none → q.open_ ≠ [] → exec (.qfence n) s = .next s) ∧
    -- records
    (∀ o r h pa, q.owed = o :: r → o.at_ ≤ s.now → o.stores = [] → o.msg = none → q.err ≠ 0x2B → q.room = true →
      c.enginePlace s.env q.vi (q.cbase + w64 (16 * (q.ctail.toNat % q.csize))) 1 = some (m, h, pa) → m.badAt pa 16 = false → (m.home h).watches = [] → (m.home h).waddrs = [] →
      (commit s m).mem.wf = true → ownKey pa 16 m → out (.completionRecord n) fun t k => k.owed = r ∧ k.ctail = q.ctail + 1 ∧
        leNat ((List.range 8).map fun j => t.mem.read (pa + j)) = (o.tag % 2 ^ 32 * 2 ^ 32 + (1 - q.ctail.toNat / q.csize % 2) * 2 ^ 31 + o.status * 256 + o.opc) % 2 ^ 64 ∧
        leNat ((List.range 8).map fun j => t.mem.read (pa + 8 + j)) = o.value.toNat ∧ ∀ p, p < pa ∨ pa + 16 ≤ p → t.mem.read p = (commit s m).mem.read p) ∧
    (∀ o r, q.owed = o :: r → o.at_ ≤ s.now → o.stores = [] → (∀ x ∈ q.owed, x.msg = none) → q.err ≠ 0x2B → q.room = true →
      let at_ := c.enginePlace s.env q.vi (q.cbase + w64 (16 * (q.ctail.toNat % q.csize))) 1
      (at_ = none ∧ c.engineHeld s.env q.vi q.recordVa 1 = false) ∨ (∃ h pa, at_ = some (m, h, pa) ∧ m.badAt pa 16 = true) →
      out (.cwrite n) fun t k => t.mem = s.mem ∧ k.owed = [] ∧ k.en = false ∧ k.err = 0x2B ∧ k.ctail = q.ctail) ∧
    (∀ o r, q.owed = o :: r → o.at_ ≤ s.now → o.stores = [] → (∀ x ∈ q.owed, x.msg = none) → q.err = 0x2B → out (.cwrite n) fun t k => t.mem = s.mem ∧ k.owed = [] ∧ k.en = false) ∧
    (q.room = false → q.err ≠ 0x2B → exec (.completionRecord n) s = .next s) ∧
    (∀ o r, q.owed = o :: r → s.now < o.at_ ∨ o.stores ≠ [] → exec (.completionRecord n) s = .next s) ∧
    -- host messages
    (∀ m : HostMsg, m.q = n →
      (∀ xk, c.isOff m.ck = false → c.idleGeneral m.ck = some xk → out (.hmsgDelivery m) fun t k => t.mem = s.mem ∧ k.hm = none ∧ let y := t.chip.ctx xk
        y.st = .ready ∧ y.kind = .host ∧ y.pc = m.pc ∧ y.vi = m.vi ∧ y.priv = false ∧ y.getX 14 = m.a0 ∧ y.getX 15 = m.a1 ∧ y.trapvec = (c.vi m.vi).vitrap) ∧
      (c.isOff m.ck = false → c.idleGeneral m.ck = none → (c.core m.ck).hslots.length < 4 → out (.hmsgDelivery m) fun t k => t.mem = s.mem ∧ k.hm = none ∧ (t.chip.core m.ck).hslots = (c.core m.ck).hslots ++ [m]) ∧
      (c.isOff m.ck = true ∨ (c.idleGeneral m.ck = none ∧ 4 ≤ (c.core m.ck).hslots.length) → out (.hmsgDelivery m) fun t k => t.mem = s.mem ∧ k.hm = q.hm ∧
        t.chip.net = c.net ++ [⟨coreNode m.ck, dispNode (n / 512), .rsp, s.now + 256, .hmsgRetry m⟩]) ∧
      (q.hm = some m → out (.hmsgRetry m) fun t _ => t.mem = s.mem ∧ t.chip.net = c.net ++ [⟨dispNode (n / 512), coreNode m.ck, .msg, 0, .hmsgDelivery m⟩]))

/-! ### Placement, pins and hedging (01_work, 03_cluster) -/

/-- R13, R19, R20, R22, R26, R29, R30, R84 to R86, R89, R92: a dispatcher reserves a context and scratchpad for the next unit of an
eligible launch or of the launch in DRAIN, reads and checks the unit's descriptor, pins its inputs in ascending slot order, a bad
descriptor, header or version failing the copy with its code, and starts it with the state of R30; the answer to a request that no copy waits
for is released; it keeps other dies' reports, and with nothing to place takes an untouched block of the first die in its order; the next
GANG launch enters DRAIN and, once no unit of it is queued, all its units read their descriptors. The forms of events and messages are the
model's own (log 84); the pointer follows log 65, backups log 66, steals log 67. -/
def Obligations.DispatchEvents : Prop :=
  ∀ (s : State) (u : URef) (l : Launch) (r : CopyRec) (n : UnitRec) (die : Nat) (m : Chip) (q : Req), s.chip.wr = [] →
    let c := s.chip
    let out (i : Instr) (P : State → Prop) : Prop := ∃ t, exec i s = .next t ∧ P t
    let same (i : Instr) : Prop := exec i s = .next s
    let copy (t : State) (l : Launch) (z : UnitRec) (f : CopyRec) : Prop := (t.chip.vi u.vi).launches = [l] ∧ l.units = [z] ∧ z.copies = [f]
    let fails (t : State) (code : Nat) : Prop := (∃ k z f, copy t k z f ∧ f.st = .ended ∧ z.res = some (.failed code) ∧ k.retired = l.retired + 1) ∧
      (t.chip.ctx r.xk).st = .idle ∧ (t.chip.ctx r.xk).resv = false
    let starts (t : State) (z : UnitRec) (pins : List (Nat × Pin)) : Prop := let y := t.chip.ctx r.xk
      let g := field z.snap
      y.st = .ready ∧ y.kind = .unit ∧ y.vi = u.vi ∧ y.pc = l.codebase + w64 (4 * g 0 32) ∧ y.priv = false ∧ y.runBase = r.base ∧ y.runLen = r.len ∧ y.geom = l.geom ∧
      y.getX 8 = windowAddr (coreOf r.xk) r.base ∧ y.getX 9 = (if g 128 32 = 0xFFFFFFFF then 0 else l.tilebase + w64 (128 * g 128 32)) ∧
      (∀ i < 4, y.getX (10 + i) = (pins.find? (·.1 == i)).elim 0 fun p => p.2.buf) ∧ y.getX 14 = w64 (g 448 32) ∧ y.getX 15 = w64 (g 480 32) ∧
      y.tilecoord = w64 (g 64 48) ∧ y.trapvec = (c.vi u.vi).vitrap ∧ (∃ k, y.unit = some k ∧ k.u = u ∧ k.hedged = (g 128 32 != 0xFFFFFFFF)) ∧
      ∃ k f, copy t k { z with copies := [f], t0 := if r.copy ≠ 0 ∧ z.t0.isNone then some s.now else z.t0 } f ∧ f.st = .resident ∧ f.start = s.now
    -- the copy reads and asks with `k` from slot `i` on; `z` is its unit's record
    let asks (t : State) (z : UnitRec) (net : List Flight) (i : Nat) (rest : List Nat) (pins : List (Nat × Pin)) : Prop :=
      let p := z.slot i
      let va := l.tilebase + w64 (128 * p.1)
      (isGlobal va = false → pins = [] → fails t 0x13) ∧
      (isGlobal va = true → ∃ k f a, copy t k { z with copies := [f] } f ∧ f.st = .pinning ∧ f.due = i :: rest ∧ f.pins = pins ∧ f.pinId = a.part ∧ a.src = r.xk ∧ a.va = va ∧
        a.act = .pin u i (BitVec.ofNat 32 p.2) ∧ t.chip.net = net ++ [⟨coreNode (coreOf r.xk), transNode va, .req, 0, .translate a⟩])
    let only : Prop := (c.vi u.vi).launches = [l] ∧ l.lid = u.lid ∧ l.vi = u.vi ∧ l.remembered = true ∧ l.units = [n] ∧ n.idx = u.idx ∧ n.copies = [r] ∧ r.copy = u.copy ∧
      n.res = none ∧ n.winner = none ∧ n.nback = 0 ∧ l.retired + 1 < l.total ∧ (∀ p ∈ c.dies, p.2.backups = []) ∧ (c.core (coreOf r.xk)).hslots = [] ∧ (c.ctx r.xk).resv = true
    -- descriptors; `m`: the package after the descriptor has been read
    (only → r.st = .placing → l.st ≠ .drain → r.pins = [] →
      (c.engineRead s.env u.vi (l.udbase + w64 (64 * u.idx)) 64 = none → c.engineHeld s.env u.vi (l.udbase + w64 (64 * u.idx)) 0 = false → out (.descriptorRead u) fun t => t.mem = s.mem ∧ fails t 0x17) ∧
      (∀ d, c.engineRead s.env u.vi (l.udbase + w64 (64 * u.idx)) 64 = some (m, d) → let z : UnitRec := { n with snap := d }
        (descOk l u.idx d = false → out (.descriptorRead u) fun t => t.mem = (commit s m).mem ∧ fails t 0x10) ∧
        (descOk l u.idx d = true → z.present = [] → out (.descriptorRead u) fun t => t.mem = (commit s m).mem ∧ starts t z []) ∧
        (∀ i rest, descOk l u.idx d = true → z.present = i :: rest → out (.descriptorRead u) fun t => t.mem = (commit s m).mem ∧ asks t z m.net i rest []))) ∧
    ((c.vi u.vi).copyOf u = none → same (.descriptorRead u)) ∧
    -- pins
    (∀ slot ver rest, only → r.st = .pinning → r.pins = [] → r.due = slot :: rest → q.act = .pin u slot ver → q.src = r.xk → q.part = r.pinId →
      (∀ buf b tl h pa, let p : Nat × Pin := (slot, ⟨q.va, h, pa, buf, b, false⟩)
        (rest = [] → out (.pinReply q h (.pinned buf b tl pa)) fun t => t.mem = s.mem ∧ starts t n [p]) ∧
        (∀ i more, rest = i :: more → isGlobal (l.tilebase + w64 (128 * (n.slot i).1)) = true → out (.pinReply q h (.pinned buf b tl pa)) fun t => t.mem = s.mem ∧ asks t n c.net i more [p])) ∧
      ∀ h, (out (.pinReply q h .stalepin) fun t => t.mem = s.mem ∧ fails t 0x11) ∧ (out (.pinReply q h .earlypin) fun t => t.mem = s.mem ∧ fails t 0x12) ∧
        (out (.pinReply q h .badhdr) fun t => t.mem = s.mem ∧ fails t 0x13) ∧ (out (.pinReply q h .dfetch) fun t => t.mem = s.mem ∧ fails t 0x17)) ∧
    (c.pinWaiter q = none → (∀ buf b tl h pa, out (.pinReply q h (.pinned buf b tl pa)) fun t => t.mem = s.mem ∧ t.chip.ctxs = c.ctxs ∧
        ∃ z, z.act = .unpin b ∧ z.va = q.va ∧ z.pa = pa ∧ t.chip.net = c.net ++ [⟨coreNode (coreOf q.src), h, .cmt, 0, .claimRelease z⟩]) ∧
      ∀ h, same (.pinReply q h .stalepin) ∧ same (.pinReply q h .earlypin) ∧ same (.pinReply q h .badhdr) ∧ same (.pinReply q h .dfetch)) ∧
    (∀ slot ver, only → q.act = .pin u slot ver → q.src = r.xk → r.st ≠ .pinning ∨ q.part ≠ r.pinId → c.pinWaiter q = none) ∧
    -- placement
    (∀ idx xk base, (c.vi u.vi).launches = [l] → l.vi = u.vi → c.vis = [(u.vi, c.vi u.vi)] → u.vi < 64 → l.prio ≤ 7 → (c.die die).splitPend = false → (c.die die).placeFrom ≤ s.now →
      (c.die die).backups = [] → l.nextUnit die = some idx → (∀ y ∈ l.units, y.idx ≠ idx) → c.chooseCore die l (fun _ => true) = some (xk, base) →
      (c.core (coreOf xk)).heldLoads = [] →
      let reserved (t : State) (k : Launch) : Prop := t.mem = s.mem ∧ (t.chip.ctx xk).resv = true ∧ (t.chip.vi u.vi).launches = [k] ∧ k.taken (idx / 64) = l.taken (idx / 64) + 1 ∧
        (t.chip.die die).placeFrom = s.now + 1 ∧ ∃ z f, k.units = l.units ++ [z] ∧ z.idx = idx ∧ z.copies = [f] ∧ f.copy = 0 ∧ f.die = die ∧ f.st = .placing ∧ f.xk = xk ∧ f.base = base ∧
          f.len = (l.spkib + 3) / 4 * 4096 ∧ f.ntile = l.ntile
      (l.st = .eligible → l.gang = false → out (.placementDecision die) fun t => t.chip.net = c.net ++ [⟨dispNode die, dispNode die, .rsp, 0, .descriptorRead ⟨u.vi, l.lid, idx, 0⟩⟩] ∧
        ∃ k, reserved t k ∧ k.st = if k.anyQueued then .eligible else .placed) ∧
      (l.st = .drain → out (.placementDecision die) fun t => t.chip.net = c.net ∧ ∃ k, reserved t k ∧ k.st = .drain)) ∧
    (c.placement s.env die = none → same (.placementDecision die)) ∧ ((c.die die).splitPend = true ∨ s.now < (c.die die).placeFrom → c.placement s.env die = none) ∧
    -- reports, steals and GANG
    (∀ f x y, out (.dispatchReport die f x y) fun t => t.mem = s.mem ∧ (t.chip.die die).reports.get (0, 0) f = (x, y)) ∧
    (∀ f k rest, c.canPlace die = false → (c.die die).splitPend = false → (∃ i < 768, (c.idleGeneral (die * 768 + i)).isSome = true) → (c.die die).stealOrder die = f :: rest →
      c.stealBlock f = some (l, k) → (c.vi l.vi).launches = [l] → out (.blockSteal die) fun t => t.mem = s.mem ∧ ∃ m, (t.chip.vi l.vi).launches = [m] ∧ m.blockDie k = die ∧ m.nextIn = l.nextIn) ∧
    (c.canPlace die = true ∨ (c.die die).stealOrder die = [] → same (.blockSteal die)) ∧
    (∀ f k, c.stealBlock f = some (l, k) → l.blockDie k = f ∧ l.taken k = 0 ∧ l.cancelled = false) ∧
    (c.nextGang = some l → l.gang = true ∧ l.st = .eligible ∧ ((c.vi l.vi).launches = [l] → out (.gangDrain l.vi l.lid) fun t => t.mem = s.mem ∧ (t.chip.vi l.vi).launches = [{ l with st := .drain }])) ∧
    (∀ v id, (∀ k, c.nextGang = some k → k.vi ≠ v ∨ k.lid ≠ id) → same (.gangDrain v id)) ∧
    (c.gangReady = some l → (c.vi l.vi).launches = [l] → l.units = [n] → n.copies = [r] → r.st = .placing → out (.gangReserve l.vi l.lid) fun t => t.mem = s.mem ∧
      (t.chip.vi l.vi).launches = [{ l with st := .placed }] ∧ t.chip.net = c.net ++ [⟨dispNode r.die, dispNode r.die, .rsp, 0, .descriptorRead ⟨l.vi, l.lid, n.idx, r.copy⟩⟩]) ∧
    (∀ v id, (∀ k, c.gangReady = some k → k.vi ≠ v ∨ k.lid ≠ id) → same (.gangReserve v id))

/-- R94 to R102: the monitor samples resident copies every 4,096 ticks, and a copy that is behind asks for a backup; the budget check denies
the request, sends it to a dispatcher or to the device that HEDGECFG names, or drops it; a request waits 16,384 ticks for its place, and its
end without a backup refunds its estimate; a backup that the other device has placed is a copy of the unit; every 1,250 ticks each budget
gains FILL up to CAP. The forms of events and messages are the
model's own (log 84); the hold-off follows log 68, the order of samples log 69, backups on another device log 87. -/
def Obligations.HedgeEvents : Prop :=
  ∀ (s : State) (b : BReq) (l : Launch) (n : UnitRec), s.chip.wr = [] →
    let c := s.chip
    let v := c.vi b.u.vi
    let cfg := v.hedgecfg.toNat
    let out (i : Instr) (P : State → Prop) : Prop := ∃ t, exec i s = .next t ∧ t.mem = s.mem ∧ P t
    let same (i : Instr) : Prop := exec i s = .next s
    let only : Prop := v.launches = [l] ∧ l.lid = b.u.lid ∧ l.st ≠ .complete ∧ l.remembered = true ∧ l.units = [n] ∧ n.idx = b.u.idx
    let unit (t : State) (f : UnitRec) : Prop := ∃ m, (t.chip.vi b.u.vi).launches = [m] ∧ m.units = [f]
    let level (t : State) : Int := (t.chip.vi b.u.vi).level
    let refunded (t : State) : Prop := level t = min (v.cap : Int) (v.level + b.est)
    let timer (b : BReq) : Flight := ⟨0xFFFFF, 0xFFFFF, .rsp, s.now + 16384, .hedgeRequestTimeout b⟩
    let asked : BReq := { b with job := some (backJob (c.group % 16) (bits cfg 44 4) l n) }
    -- the budget check
    (v.findUnit b.u = none → same (.budgetCheck b)) ∧ (only → n.settledFor l = true → same (.budgetCheck b)) ∧
    (only → n.settledFor l = false →
      (v.level < b.est → out (.budgetCheck b) fun t => (t.chip.vi b.u.vi).ctr.hedgedeny = v.ctr.hedgedeny + 1 ∧ level t = v.level ∧ unit t { n with hold := some 4 } ∧ t.chip.net = c.net) ∧
      (b.est ≤ v.level → bit cfg 27 = false → out (.budgetCheck b) fun t => level t = v.level - b.est ∧ unit t { n with sumE := n.sumE + b.est, granted := true } ∧
        t.chip.net = c.net ++ [⟨viNode b.u.vi, dispNode (c.hedgeTarget b l n), .cmt, 0, .backupRequest { b with die := c.hedgeTarget b l n }⟩]) ∧
      (b.est ≤ v.level → bit cfg 27 = true → bits cfg 44 4 = c.group % 16 → out (.budgetCheck b) fun t => level t = min (v.cap : Int) v.level ∧
        (t.chip.vi b.u.vi).ctr.hedgedrop = v.ctr.hedgedrop + 1 ∧ unit t { n with granted := false, devReq := none, hold := some 4 } ∧ t.chip.net = c.net) ∧
      (b.est ≤ v.level → bit cfg 27 = true → bits cfg 44 4 ≠ c.group % 16 → out (.budgetCheck b) fun t => level t = v.level - b.est ∧
        unit t { n with sumE := n.sumE + b.est, granted := true, devReq := some asked } ∧
        t.chip.outbox = c.outbox ++ [(extDevice (bits cfg 44 4), .backupRequest asked)])) ∧
    (bit cfg 26 = false → c.hedgeTarget b l n = b.die) ∧
    (bit cfg 26 = true → (∃ d < 8, ∀ r ∈ n.copies, r.live = true → r.dev = none → r.die ≠ d) → ∀ r ∈ n.copies, r.live = true → r.dev = none → r.die ≠ c.hedgeTarget b l n) ∧
    -- requests at a dispatcher
    (b.note = .ask → b.job = none → v.copyOf b.u = none → same (.backupRequest b)) ∧
    (∀ r, b.note = .ask → b.job = none → only → n.copies = [r] → r.copy = b.u.copy → n.settled = false →
      (n.settledFor l = false → out (.backupRequest b) fun t => (t.chip.die b.die).backups = (c.die b.die).backups ++ [{ b with until_ := s.now + 16384 }] ∧
        t.chip.net = c.net ++ [timer { b with until_ := s.now + 16384 }]) ∧
      (n.settledFor l = true → out (.backupRequest b) fun t => refunded t ∧ unit t { n with sumE := n.sumE - b.est, granted := false, devReq := none })) ∧
    (∀ j, b.note = .ask → b.job = some j → out (.backupRequest b) fun t => ∃ w, (t.chip.die b.die).backups = (c.die b.die).backups ++ [w] ∧ w.u = ⟨b.u.vi, guestLid j.origin b.u.lid, b.u.idx, 0⟩ ∧
      w.est = b.est ∧ w.job = some j ∧ w.until_ = s.now + 16384 ∧ t.chip.net = c.net ++ [timer w] ∧
      (v.findUnit w.u = none → ∃ o, (t.chip.vi b.u.vi).launches = v.launches ++ [guestLaunch b j s.now o])) ∧
    (b.job = none → b.u.lid < 2 ^ 32 → only → (c.die b.die).backups = [b] → out (.hedgeRequestTimeout b) fun t => (t.chip.die b.die).backups = [] ∧ refunded t ∧
      (t.chip.vi b.u.vi).ctr.hedgedrop = v.ctr.hedgedrop + 1 ∧ unit t { n with sumE := n.sumE - b.est, granted := false, devReq := none, hold := some 4 }) ∧
    (∀ j, b.job = some j → (c.die b.die).backups = [b] → out (.hedgeRequestTimeout b) fun t => (t.chip.die b.die).backups = [] ∧
      t.chip.outbox = c.outbox ++ [(extDevice j.origin, .hedgeRequestTimeout { b with u := { b.u with lid := b.u.lid % 2 ^ 32 } })]) ∧
    (∀ w, only → (c.die b.die).backups = [] → n.devReq = some w →
      (w.serial = b.serial → out (.hedgeRequestTimeout b) fun t => refunded t ∧
        (t.chip.vi b.u.vi).ctr.hedgedrop = v.ctr.hedgedrop + 1 ∧ unit t { n with sumE := n.sumE - b.est, granted := false, devReq := none, hold := some 4 }) ∧
      (w.serial ≠ b.serial → same (.hedgeRequestTimeout b))) ∧
    (only → (c.die b.die).backups = [] → n.devReq = none → same (.hedgeRequestTimeout b)) ∧
    ((c.die b.die).backups = [] → v.findUnit b.u = none → same (.hedgeRequestTimeout b)) ∧
    -- what two devices tell each other of a backup
    (∀ j w y, b.note = .placed y → b.job = some j → only → n.devReq = some w → w.serial = b.serial → out (.backupRequest b) fun t => level t = v.level ∧ t.chip.outbox = c.outbox ∧
      ∃ f, unit t { n with copies := n.copies ++ [f], nback := n.nback + 1, granted := false, devReq := none } ∧ f.copy = n.nback + 1 ∧ f.xk = y ∧ f.dev = some j.peer ∧ f.st = .resident) ∧
    (∀ j y, b.note = .placed y → b.job = some j → only → n.devReq = none → out (.backupRequest b) fun t => unit t n ∧
      t.chip.outbox = c.outbox ++ [(extDevice j.peer, .cancelCopy y 0 (some ⟨b.u.vi, guestLid j.origin b.u.lid, b.u.idx, j.copy⟩))]) ∧
    (b.note = .more → only → n.mayAsk l cfg = true → out (.backupRequest b) fun t => unit t { n with hold := some 4 } ∧
      t.chip.net = c.net ++ [⟨dispNode b.die, viNode b.u.vi, .cmt, 0, .budgetCheck { b with note := .ask }⟩]) ∧
    (∀ j, b.note = .withdraw → b.job = some j → out (.backupRequest b) fun t => t.chip.net = c.net ∧
      ∀ w, w ∈ (t.chip.die b.die).backups ↔ w ∈ (c.die b.die).backups ∧ ¬ (w.serial = b.serial ∧ w.u = ⟨b.u.vi, guestLid j.origin b.u.lid, b.u.idx, 0⟩)) ∧
    -- refills and samples
    (out .budgetRefill fun t => t.chip.nextRefill = (s.now / 1250 + 1) * 1250 ∧
      t.chip.vis = c.vis.map fun q => (q.1, { q.2 with level := min (q.2.cap : Int) (q.2.level + q.2.fill), budgetBusy := true })) ∧
    (c.ctxs.all (fun p => p.2.st == .idle) = true → out .hedgeSample fun t => t.chip.nextSample = (s.now / 4096 + 1) * 4096 ∧ t.chip.vis = c.vis ∧ t.chip.mons = c.mons) ∧
    (∀ xk x y r, c.ctxs = [(xk, x)] → x.kind = .unit → x.ending = none → x.unit = some y → y.u = b.u → only → n.copies = [r] → r.copy = b.u.copy → r.xk = xk → r.st = .resident →
      (x.st = .halt → out .hedgeSample fun t => unit t { n with copies := [{ r with lastWork := none }] }) ∧
      (x.st = .ready → r.lastWork = none → out .hedgeSample fun t => unit t { n with copies := [{ r with lastWork := some x.workctr }] }) ∧
      (∀ w, x.st = .ready → r.lastWork = some w →
        let d := (x.workctr - w).toNat
        let k := classOf (c.mon (clusterKey xk)) b.u.vi n.hclass s.now
        let k' := { k with rate := histAdd k.rate d, last := s.now }
        let r' := { r with lastWork := some x.workctr, samples := (r.samples ++ [d]).drop (r.samples.length + 1 - 4) }
        let P (t : State) : Prop := t.chip.mon (clusterKey xk) = putClass (c.mon (clusterKey xk)) k'
        (∀ h, n.hold = some h → out .hedgeSample fun t => P t ∧ t.chip.net = c.net ∧ unit t { n with copies := [r'], hold := if h ≤ 1 then none else some (h - 1) }) ∧
        (n.hold = none → n.mayAsk l cfg = false ∨ behind k' cfg r'.samples = false ∨ estimate k' x.workctr.toNat = none → out .hedgeSample fun t => P t ∧ t.chip.net = c.net ∧ unit t { n with copies := [r'] }) ∧
        (∀ est, b.u.lid < 2 ^ 32 → n.hold = none → n.mayAsk l cfg = true → behind k' cfg r'.samples = true → estimate k' x.workctr.toNat = some est → out .hedgeSample fun t => P t ∧
          unit t { n with copies := [r'], hold := some 4 } ∧ ∃ a, a.u = b.u ∧ a.est = est ∧ a.die = r.die ∧ t.chip.net = c.net ++ [⟨dispNode r.die, viNode b.u.vi, .cmt, 0, .budgetCheck a⟩])))

/-! ### Power (16_power) -/

/-- R402 to R415, R6, R279: a request of a voltage or a divider is taken or refused with its code, and OFF only of a core with no work; voltages
step by 10 mV and settle after 40 ticks, while no hop of the row is under way; a hop stops a clock for 8 ticks, waits for a step and for stop
requests, and lets those asked for meanwhile be taken at its end; droop stretches for at least 32; at each step boundary a row's level rises by
one entry while the demand of its cores is above it, falls by one, or stays, and no more steps than its level are granted, shared evenly; the
control interval sets throttles, limits and SLOW, and sends SLOW itself where a throttle reaches 3; STAGGER and SLOW are sent to every device
of the mask and act; an emergency halts a context that executes, and EMERG ends it. The forms of events and messages are the model's own
(log 84); temperatures and power are free (log 10), the control interval follows logs 70 and 71, refused requests log 72, OFF log 73, EMERG
log 74, the budget of a run across a change of clock log 5. -/
def Obligations.PowerEvents : Prop :=
  ∀ (s : State) (p r xk : Nat) (v : W64), s.chip.wr = [] →
    let c := s.chip
    let k := c.pcore p
    let w := c.row r
    let x := c.ctx xk
    let pw := c.power
    let out (i : Instr) (P : State → Prop) : Prop := ∃ t, exec i s = .next t ∧ t.mem = s.mem ∧ P t
    let same (i : Instr) : Prop := exec i s = .next s
    let u := bits v.toNat 32 8
    let noHop : Prop := ∀ q ∈ rowCores r, (c.pcore q).hop = false
    (55 ≤ u → u ≤ 85 → out (.rowpwr r v) fun t => t.chip.row r = { w with vreq := u, deny := 0, boostreq := bit v.toNat 30, ceil := bits v.toNat 24 4 } ∧ t.chip.power = pw) ∧
    (u < 55 ∨ 85 < u → out (.rowpwr r v) fun t => (t.chip.row r).vreq = w.vreq ∧ (t.chip.row r).deny = (if u < 55 then 1 else 2) ∧ t.chip.power.denycnt = min 65535 (pw.denycnt + 1)) ∧
    (bit v.toNat 14 = false → k.off = false → out (.corepwr p v) fun t => t.chip.pcore p = { k with dreq := v.toNat % 4, deny := 0, off := false } ∧ t.chip.ctxs = c.ctxs) ∧
    (bit v.toNat 14 = true → k.off = true ∨ c.canOff (c.logical p) = true → out (.corepwr p v) fun t => t.chip.pcore p = { k with dreq := v.toNat % 4, deny := 0, off := true } ∧ t.chip.ctxs = c.ctxs) ∧
    (bit v.toNat 14 = true → k.off = false → c.canOff (c.logical p) = false → out (.corepwr p v) fun t => (t.chip.pcore p).off = false ∧ (t.chip.pcore p).deny = 4 ∧
      t.chip.power.denycnt = min 65535 (pw.denycnt + 1)) ∧
    (bit v.toNat 14 = false → k.off = true → (c.ctxs.map (·.1)).Nodup → ∃ t, exec (.corepwr p v) s = .next t ∧ (t.chip.pcore p).off = false ∧ t.chip.core (c.logical p) = {} ∧
      t.chip.home (coreNode (c.logical p)) = {} ∧ ∀ n < 8, t.chip.ctx (c.logical p * 8 + n) = { resv := (c.ctx (c.logical p * 8 + n)).resv }) ∧
    (w.stepping = true → out (.voltageStep r) fun t => t.chip.row r = { w with stepping := false } ∧ t.chip.net = c.net) ∧
    (w.stepping = false → w.vcur = c.vTarget r ∨ ¬ noHop → same (.voltageStep r)) ∧
    (w.stepping = false → w.vcur ≠ c.vTarget r → noHop → out (.voltageStep r) fun t => (t.chip.row r).stepping = true ∧
      (t.chip.row r).vcur = (if w.vcur < c.vTarget r then w.vcur + 1 else w.vcur - 1) ∧ t.chip.net = c.net ++ [⟨0xFFFFF, 0xFFFFF, .rsp, s.now + 40, .voltageStep r⟩]) ∧
    (w.vreq ≤ c.vTarget r ∧ ∀ q ∈ rowCores r, needOf (min (c.wanted q) (c.pcore q).dcur) ≤ c.vTarget r) ∧
    (k.hop = true → out (.clockHop p) fun t => t.chip.pcore p = { k with hop := false } ∧ (xk ∈ c.busyCtxs (c.logical p) → t.chip.ctx xk = x.stopIfAsked s.now)) ∧
    (k.hop = false → c.hopDue p = true → out (.clockHop p) fun t => t.chip.pcore p = { k with hop := true, dcur := c.wanted p } ∧
      ⟨0xFFFFF, 0xFFFFF, .rsp, s.now + 8, .clockHop p⟩ ∈ t.chip.net ∧
      (xk ∈ c.busyCtxs (c.logical p) → let y := t.chip.ctx xk
        y = { x with budget := x.budget - (s.now - x.budgetAt) / x.perCycle, budgetAt := s.now + 8, perCycle := t.chip.cycleTicks p, ops := y.ops }) ∧
      ∀ a b n at_, (⟨a, b, .rsp, at_, .yieldExpiry xk n⟩ : Flight) ∈ c.net → coreOf xk = c.logical p → s.now < at_ →
        (⟨a, b, .rsp, s.now + 8 + (at_ - s.now + c.cycleTicks p - 1) / c.cycleTicks p * t.chip.cycleTicks p, .yieldExpiry xk n⟩ : Flight) ∈ t.chip.net) ∧
    (k.hop = false → c.hopDue p = false → same (.clockHop p)) ∧
    (c.hopDue p = true → k.hop = false ∧ c.wanted p ≠ k.dcur ∧ (c.row (rowOfP p)).stepping = false ∧ (c.wanted p < k.dcur → needOf (c.wanted p) ≤ (c.row (rowOfP p)).vcur) ∧
      ∀ n < 8, (c.ctx (c.logical p * 8 + n)).stopReq = false) ∧
    (out (.droop r) fun t => t.chip.row r = { w with droop := true, droopUntil := s.now + 32 } ∧ ∀ q ∈ rowCores r, t.chip.cycleTicks q = 4) ∧
    (w.droopUntil ≤ s.now → out (.voltageRecovered r) fun t => t.chip.row r = { w with droop := false } ∧ ∀ q ∈ rowCores r, t.chip.cycleTicks q = (c.pcore q).dcur + 1) ∧
    (s.now < w.droopUntil → out (.voltageRecovered r) fun t => t.chip.row r = w ∧ t.chip.net = c.net ++ [⟨0xFFFFF, 0xFFFFF, .rsp, w.droopUntil, .voltageRecovered r⟩]) ∧
    -- the limiter: the demand of a core, and a step boundary at which only cores of row `r` have any
    (let n := c.cycleTicks p
     let at_ (i : Nat) : Ctx := c.ctx (c.logical p * 8 + i)
     c.demand p ≤ (3 + n) / n ∧ (k.off = true ∨ k.hop = true → c.demand p = 0) ∧ ((∀ i < 8, (at_ i).mop = none) → c.demand p = 0) ∧
     ∀ j m, k.off = false → k.hop = false → (∀ q, (c.core (c.logical p)).mxNow = some q → q.2 = 0) → j < 8 → (∀ i < 8, i ≠ j → (at_ i).mop = none) → (at_ j).mop = some m →
       (at_ j).stopReq = false → c.endReason (c.logical p * 8 + j) = none → m.ns ≤ m.seg + 1 → c.demand p = min ((3 + n) / n) m.left) ∧
    (r < 384 → (∀ q < 6144, q / 16 ≠ r → c.demand q = 0) → (∀ i < 16, ∀ j < 16, c.logical (16 * r + i) = c.logical (16 * r + j) → i = j) →
      let d := c.die (r / 48)
      let dem (i : Nat) : Nat := c.demand (16 * r + i)
      let total := ((List.range 16).map dem).sum
      let top := if s.now < pw.staggerUntil then 0 else w.eceil
      let held : Prop := max 1 d.dwell ≤ s.now / 4 - w.since
      let up : Prop := held ∧ w.lvl < top ∧ d.level w.lvl < total
      let down : Prop := held ∧ 0 < w.lvl ∧ (total ≤ d.level (w.lvl - 1) ∨ top < w.lvl)
      let serves (i n : Nat) (m : MOp) : Prop := n < 8 ∧ (c.core (c.logical (16 * r + i))).mxNow = some (n, 0) ∧ (c.ctx (c.logical (16 * r + i) * 8 + n)).mxWork = some 0 ∧
        (c.ctx (c.logical (16 * r + i) * 8 + n)).mop = some m ∧ dem i < m.left
      (∀ i < 16, 0 < dem i → ∃ n m, serves i n m) → out .rampStep fun t =>
        t.chip.nextRamp = (s.now / 4 + 1) * 4 ∧ (up → (t.chip.row r).lvl = w.lvl + 1 ∧ (t.chip.row r).since = s.now / 4) ∧
        (¬ up → down → (t.chip.row r).lvl = w.lvl - 1 ∧ (t.chip.row r).since = s.now / 4) ∧ (¬ up → ¬ down → (t.chip.row r).lvl = w.lvl ∧ (t.chip.row r).since = w.since) ∧
        ∃ g : Nat → Nat, (∀ i < 16, g i ≤ dem i) ∧ ((List.range 16).map g).sum = min total (d.level (t.chip.row r).lvl) ∧ (∀ i < 16, ∀ j < 16, g i + 1 < g j → g i = dem i) ∧
          ∀ i < 16, ∀ n m, serves i n m → let z := c.logical (16 * r + i) * 8 + n
            t.chip.ctx z = { c.ctx z with workctr := (c.ctx z).workctr + BitVec.ofNat 64 (g i), mop := some { m with left := m.left - g i } }) ∧
    -- the interval
    (let cfg := pw.cfg.toNat
     let n := s.now / 1250
     let core (p : Nat) : PCore := thermalCore (Config.temperature p n) (bits cfg 56 8) (bits cfg 52 4) (c.pcore p)
     let left : Nat := pw.slowNext.elim (pw.slowLeft - 1) (·.2)
     let watts := Config.power n
     let reach : Prop := ∃ q < 6144, (core q).thr = 3 ∧ (c.pcore q).thr ≠ 3
     out .controlInterval fun t => t.chip.nextInterval = (n + 1) * 1250 ∧ t.chip.power.pwr = min 4095 watts ∧ t.chip.power.slowLeft = left ∧
       t.chip.power.slowFl = pw.slowNext.elim pw.slowFl (·.1) ∧ t.chip.power.slowNext = none ∧
       (p < 6144 → t.chip.pcore p = core p) ∧
       (r < 384 → t.chip.row r = intervalRow (decide (0 < left) || (rowCores r).any fun p => (core p).hot) (decide (bits cfg 40 12 < watts)) (decide (watts + 10 * bits cfg 32 8 ≤ bits cfg 40 12)) w) ∧
       (bit cfg 15 = true → reach → ∀ g < 16, bit (bits cfg 16 16) g = true →
         (g = c.group % 16 → (⟨tanNode, tanNode, .ctl, 0, .slow (bits cfg 13 2) (bits cfg 9 4)⟩ : Flight) ∈ t.chip.net) ∧
         (g ≠ c.group % 16 → (extDevice g, .slow (bits cfg 13 2) (bits cfg 9 4)) ∈ t.chip.outbox)) ∧
       (bit cfg 15 = false ∨ ¬ reach → t.chip.outbox = c.outbox)) ∧
    (∀ temp tlim hyst, (tlim < temp → (thermalCore temp tlim hyst k).hot = true ∧ (thermalCore temp tlim hyst k).thr = min 3 (k.thr + 1)) ∧
      (temp ≤ tlim → (thermalCore temp tlim hyst k).hot = false ∧ (thermalCore temp tlim hyst k).thr = if temp + hyst ≤ tlim then k.thr - 1 else k.thr)) ∧
    (∀ hot high low, let z := intervalRow hot high low w
      (hot = true ∨ high = true → z.boosted = false) ∧ (hot = false → high = false → z.boosted = w.boostreq) ∧ z.eceil = (if z.boosted then 15 else z.ceil - z.limitSteps) ∧
      (hot = false → high = true → low = false → z.limitSteps = w.limitSteps + 1 ∧ z.clim = true) ∧ (hot = true → low = false → z.limitSteps = w.limitSteps ∧ z.clim = w.clim) ∧
      (high = false → low = true → z.limitSteps = w.limitSteps - 1 ∧ (w.limitSteps = 1 → z.clim = false))) ∧
    -- messages and the emergency
    (let f := pw.setFab v.toNat
     (out (.fabpwrStagger v) fun t => t.chip.power = f ∧ ∀ g < 16, bit f.fabMask g = true → (g = c.group % 16 → (⟨tanNode, tanNode, .ctl, 0, .stagger f.fabNslot f.fabSlotw⟩ : Flight) ∈ t.chip.net) ∧
        (g ≠ c.group % 16 → (extDevice g, .stagger f.fabNslot f.fabSlotw) ∈ t.chip.outbox)) ∧
     (out (.fabpwrSlow v) fun t => t.chip.power = f ∧ ∀ g < 16, bit f.fabMask g = true → (g = c.group % 16 → (⟨tanNode, tanNode, .ctl, 0, .slow f.fabSlowf f.fabSlowd⟩ : Flight) ∈ t.chip.net) ∧
        (g ≠ c.group % 16 → (extDevice g, .slow f.fabSlowf f.fabSlowd) ∈ t.chip.outbox))) ∧
    (∀ n w, out (.stagger n w) fun t => t.chip.power = { pw with staggerUntil := s.now + c.group % 16 % (n + 1) * max 1 w }) ∧
    (∀ f n, out (.slow f n) fun t => t.chip.power = { pw with slowNext := some (f, max 1 n) }) ∧
    (out .supplyEmergency fun t => t.chip.power.emerg = true ∧ t.chip.power.emergCond = true ∧
      (x.st ≠ .idle → x.st ≠ .halt → c.hopping (coreOf xk) = false → x.mop = none → x.hasRefused = false → x.upcallDue = false → x.hbudgetDue s.now = false → x.repair = none → x.pc.toNat % 4 = 0 →
        let y := t.chip.ctx xk
        y.st = .halt ∧ y.was = x.st ∧ y.haltPwr = true ∧ y.epc = w64 (x.pc.toNat / 4 * 4)) ∧
      (x.st ≠ .idle → x.st ≠ .halt → c.hopping (coreOf xk) = true → t.chip.ctx xk = { x with haltPwr := true, stopReq := true }) ∧
      (x.st = .halt → t.chip.ctx xk = { x with haltPwr := true }) ∧ (x.st = .idle → t.chip.ctx xk = x)) ∧
    (out .emergencyCleared fun t => t.chip.power = { pw with emergCond := false }) ∧
    (pw.emergCond = true ∨ pw.emerg = false ∨ bit v.toNat 31 = false → same (.emerg v)) ∧
    (bit v.toNat 31 = true → pw.emergCond = false → pw.emerg = true → c.ctxs = [(xk, x)] → x.st = .halt → x.haltCtl = false → x.haltSwap = false → x.waiting = none → x.pend.kind ≠ .waddr →
      x.replayDue = false → out (.emerg v) fun t => t.chip.power.emerg = false ∧ (t.chip.ctx xk).st = x.was ∧ (t.chip.ctx xk).pc = x.epc ∧ (t.chip.ctx xk).haltPwr = false)

/-- R60, R63, R66, R70, R72 to R75, R452, R453: ports train, lose lanes, resend and acknowledge flits, get permits back and roll keys, the
receiver holding both keys until KEYDONE; Tantalum checks what boots the package, once, and answers each SPDM request; a fatal error writes
the dump once, its header and the words of a readable core, and stops the package. The forms of events and messages are the model's own
(log 84); what boot checks, and the payloads and sessions of SPDM, follow log 9, flits and ports logs 11 and 13, the dump's open sections
log 14. -/
def Obligations.PortAndTrustEvents : Prop :=
  ∀ (s : State) (n a b d : Nat), s.chip.wr = [] →
    let c := s.chip
    let p := c.port n
    let tan := c.tan
    let out (i : Instr) (P : State → Prop) : Prop := ∃ t, exec i s = .next t ∧ t.mem = s.mem ∧ P t
    let same (i : Instr) : Prop := exec i s = .next s
    let port (t : State) (q : Port) : Prop := t.chip.port n = q ∧ t.chip.outbox = c.outbox
    let lost (t : State) : Prop := t.chip.port n = { p with up := false, down := true, keyed := false, lanes := 0, rxRow := 0 } ∧
      (n = 0 → c.bridge = true → t.chip.inputs = .fatalError 2 255 :: c.inputs) ∧ (n ≠ 0 ∨ c.bridge = false → t.chip.inputs = c.inputs)
    let lanes := if a < 8 then 4 else 8
    (4 ≤ a → p.up = false → out (.portTraining n a) fun t => port t { p with lanes := lanes, up := true, down := false, keyed := false, nakRow := 0, rolling := 0, txSlot := 0, rxKeys := [] }) ∧
    (4 ≤ a → p.up = true → p.rxKeys = [] → out (.portTraining n a) fun t => port t { p with lanes := lanes, rxKeys := [0] }) ∧
    (4 ≤ a → p.up = true → p.rxKeys ≠ [] → out (.portTraining n a) fun t => port t { p with lanes := lanes, keyed := true }) ∧
    (a < 4 → out (.portTraining n a) lost) ∧ (out (.portDown n) lost) ∧
    (p.up = true → p.nakRow < 15 → out (.nak n) fun t => port t { p with nakRow := p.nakRow + 1, resend := p.ctr - p.acked }) ∧
    (p.up = true → 15 ≤ p.nakRow → out (.nak n) lost) ∧ (p.up = false → same (.nak n)) ∧
    (p.acked < a → a ≤ p.ctr → p.rolling ≠ 1 → out (.linkAck n a) fun t => port t { p with acked := a, nakRow := 0, resend := min p.resend (p.ctr - a) }) ∧
    (a ≤ p.acked ∨ p.ctr < a → p.rolling ≠ 1 → out (.linkAck n a) fun t => port t p) ∧
    (p.rolling = 1 → p.acked < a → a ≤ p.ctr → p.oldSlotLast ≤ a → out (.linkAck n a) fun t => (t.chip.port n).rolling = 2 ∧ (t.chip.port n).acked = a ∧
      t.chip.outbox = c.outbox ++ [(2 ^ 17 + n, .keydone n)]) ∧
    (p.rolling = 1 → p.acked < a → a ≤ p.ctr → a < p.oldSlotLast → out (.linkAck n a) fun t => (t.chip.port n).rolling = 1 ∧ (t.chip.port n).acked = a ∧ t.chip.outbox = c.outbox) ∧
    (out (.permitReturn n a b d true) fun t => port t { p with sharedFree := min 768 (p.sharedFree + d), sharedVi := p.sharedVi.put b (p.sharedVi.get 0 b - d) }) ∧
    (out (.permitReturn n a b d false) fun t => port t { p with resFree := p.resFree.put a (min 32 (p.resFree.get 32 a + d)) }) ∧
    -- key rollover
    (p.keyed = true → p.rolling = 0 → out (.keyRollover ⟨n, false, false⟩) fun t => t.chip.port n = { p with rolling := 3 } ∧
      t.chip.outbox = c.outbox ++ [(2 ^ 17 + n, .keyRollover ⟨n, true, false⟩)]) ∧
    (p.keyed = true → p.rolling = 3 → p.acked < p.ctr → out (.keyRollover ⟨n, false, true⟩) fun t => port t { p with txSlot := 1 - p.txSlot, oldSlotLast := p.ctr, rolling := 1 }) ∧
    (p.keyed = true → p.rolling = 3 → p.ctr ≤ p.acked → out (.keyRollover ⟨n, false, true⟩) fun t => t.chip.port n = { p with txSlot := 1 - p.txSlot, oldSlotLast := p.ctr, rolling := 2 } ∧
      t.chip.outbox = c.outbox ++ [(2 ^ 17 + n, .keydone n)]) ∧
    (p.keyed = false ∨ p.rolling ≠ 0 → same (.keyRollover ⟨n, false, false⟩)) ∧ (p.keyed = false ∨ p.rolling ≠ 3 → same (.keyRollover ⟨n, false, true⟩)) ∧
    (∀ k y, p.keyed = true → p.rxKeys = [k] → out (.keyRollover ⟨n, true, y⟩) fun t => t.chip.port n = { p with rxKeys := [k, 1 - k] } ∧
      t.chip.outbox = c.outbox ++ [(2 ^ 17 + n, .keyRollover ⟨n, false, true⟩)]) ∧
    (∀ y, p.keyed = false ∨ p.rxKeys.length ≠ 1 → same (.keyRollover ⟨n, true, y⟩)) ∧
    (∀ j k, p.rxKeys = [j, k] → out (.keydone n) fun t => t.chip.port n = { p with rxKeys := [k] } ∧ t.chip.outbox = c.outbox ++ [(2 ^ 17 + n, .keyack n)]) ∧
    (p.rxKeys.length ≠ 2 → out (.keydone n) fun t => t.chip.port n = p ∧ t.chip.outbox = c.outbox ++ [(2 ^ 17 + n, .keyack n)]) ∧
    (p.rolling = 2 → out (.keyack n) fun t => port t { p with rolling := 0 }) ∧ (p.rolling ≠ 2 → out (.keyack n) fun t => port t p) ∧
    -- Tantalum
    (∀ (m : Manifest) (flash : List (Option (List Byte))),
      let signed : Prop := Config.ecdsaP256 (Config.sha256 m.text) m.signature m.key = true
      let keyed : Prop := Config.sha256 m.key = Config.fusedKeyHash
      let fresh : Prop := Config.fusedMinVersion ≤ m.version
      let good (i : Nat) : Prop := ∃ x, flash.getD i none = some x ∧ Config.sha256 x = m.hashes.getD i 0
      let boots (f i st : Nat) : Prop := tan.stage ≠ 3 → tan.fail = 0 → out (.tantalumBoot m flash) fun t =>
        t.chip.tan = { tan with fail := f, image := i, stage := st, meas := bootMeasurements m flash }
      (tan.stage = 3 ∨ tan.fail ≠ 0 → same (.tantalumBoot m flash)) ∧
      (¬ signed → boots 1 0 0) ∧ (signed → ¬ keyed → boots 2 0 0) ∧ (signed → keyed → ¬ fresh → boots 3 0 0) ∧
      (signed → keyed → fresh → (∀ i < m.hashes.length, good i) → boots 0 0 3) ∧
      (∀ i < m.hashes.length, signed → keyed → fresh → (∀ j < i, good j) → ¬ good i → boots (if flash.getD i none = none then 5 else 4) (i % 256) 1)) ∧
    (let answers (i : Instr) (r : SpdmRsp) (ses : Nat) : Prop := out i fun t => t.chip.tan = { tan with outbox := tan.outbox ++ [(n, r)], sessions := tan.sessions.put n ses }
     let o := tan.sessions.get 0 n
     let free := Config.spdm n c.frees
     answers (.getVersion n) (.version 0x13) o ∧ answers (.getCapabilities n) (.capabilities free) o ∧ answers (.negotiateAlgorithms n) (.algorithms [.ecdsaP256, .sha256]) o ∧
     answers (.getDigests n) (.digests (Config.sha256 Config.certificate)) o ∧ answers (.getCertificate n) (.certificate Config.certificate) o ∧
     answers (.challenge n) (.challengeAuth free) o ∧ answers (.getMeasurements n a) (.measurement a (if a = 0 then none else tan.meas[a - 1]?)) o ∧
     answers (.keyExchange n) (.keyExchange free) 1 ∧ answers (.finish n) (.finish free) (if o = 0 then 0 else 2) ∧ answers (.endSession n) .endSession 0) ∧
    -- the dump
    (let base := bits c.dumpBase.toNat 27 13 * 2 ^ 27
     let word (t : State) (p : Nat) : Nat := leNat ((List.range 8).map fun j => t.mem.read (p + j))
     (c.dumpValid = true ∨ base = 0 → out (.fatalError a b) fun t => t.chip.stopped = true ∧ t.chip.dumpValid = c.dumpValid) ∧
     (c.dumpValid = false → base ≠ 0 → s.mem.wf = true → ∃ t, exec (.fatalError a b) s = .next t ∧ t.chip.stopped = true ∧ t.chip.dumpValid = true ∧
        word t base = 1 ∧ word t (base + 8) = s.now % 2 ^ 64 ∧ word t (base + 16) = a % 2 ^ 64 ∧ word t (base + 24) = b % 256 ∧ word t (base + 32) = tan.tstat.toNat ∧
        (∀ q, base + 40 ≤ q → q < base + 2 ^ 20 → t.mem.read q = 0) ∧ (∀ q, q < base ∨ base + 2 ^ 27 ≤ q → t.mem.read q = s.mem.read q) ∧
        ∀ k < 8, let sec := base + 2 ^ 20 + 14 * 2 ^ 20 * k
          (bit b k = false → ∀ q, sec ≤ q → q < sec + 14 * 2 ^ 20 → t.mem.read q = 0) ∧
          (bit b k = true → ∀ m < 768, let at_ := sec + 4 * 2 ^ 20 + 1024 * m
            word t (at_ + 320) = (c.corepwr (k * 768 + m)).toNat ∧ ∀ i < 8, let xk := c.logical (k * 768 + m) * 8 + i
              let x := c.ctx xk
              (List.range 5).map (fun j => word t (at_ + 40 * i + 8 * j)) = [(x.status xk).toNat, x.cause.toNat, x.epc.toNat, x.tval.toNat, ctxId c.group xk % 2 ^ 64])))
end

