-- ==== Sys2Proof/Laws/State.lean ====
section
/-! SUPPORT. One lemma per field per update of the state, and the laws of its tables. -/
namespace Sys2Proof
open Sys2Proof

/-- A table read where it was written. -/
@[simp] theorem Tbl.get_put_self (d : α) (t : Tbl α) (k : Nat) (v : α) : Tbl.get d (Tbl.put t k v) k = v := by
  induction t with
  | nil => simp [Tbl.put, Tbl.get]
  | cons p r ih =>
    obtain ⟨a, b⟩ := p
    by_cases h1 : k < a
    · simp [Tbl.put, Tbl.get, h1]
    · by_cases h2 : k = a
      · simp [Tbl.put, Tbl.get, h2]
      · simp [Tbl.put, Tbl.get, h1, h2, Ne.symm h2, ih]
/-- A table read elsewhere. -/
@[simp] theorem Tbl.get_put_ne (d : α) (t : Tbl α) (k j : Nat) (v : α) (h : j ≠ k) : Tbl.get d (Tbl.put t k v) j = Tbl.get d t j := by
  induction t with
  | nil => simp [Tbl.put, Tbl.get, Ne.symm h]
  | cons p r ih =>
    obtain ⟨a, b⟩ := p
    by_cases h1 : k < a
    · simp [Tbl.put, Tbl.get, h1, Ne.symm h]
    · by_cases h2 : k = a
      · subst h2; simp [Tbl.put, Tbl.get, Ne.symm h]
      · by_cases h3 : a = j
        · subst h3; simp [Tbl.put, h1, h2, Tbl.get]
        · simp [Tbl.put, Tbl.get, h1, h2, h3, ih]
/-- A table written twice at one key. -/
@[simp] theorem Tbl.put_put (t : Tbl α) (k : Nat) (v w : α) : Tbl.put (Tbl.put t k v) k w = Tbl.put t k w := by
  induction t with
  | nil => simp [Tbl.put]
  | cons p r ih =>
    obtain ⟨a, b⟩ := p
    by_cases h1 : k < a
    · simp [Tbl.put, h1]
    · by_cases h2 : k = a
      · simp [Tbl.put, h2]
      · simp [Tbl.put, h1, h2, ih]

namespace Machine

/-! ### Records of contexts -/

@[simp] theorem Chip.ctx_setCtx_self (c : Chip) (k : Nat) (x : Ctx) : (c.setCtx k x).ctx k = x := Tbl.get_put_self _ _ _ _
@[simp] theorem Chip.ctx_setCtx_ne (c : Chip) (k j : Nat) (x : Ctx) (h : j ≠ k) : (c.setCtx k x).ctx j = c.ctx j :=
  Tbl.get_put_ne _ _ _ _ _ h
@[simp] theorem Chip.ctx_modCtx_self (c : Chip) (k : Nat) (f : Ctx → Ctx) : (c.modCtx k f).ctx k = f (c.ctx k) := Chip.ctx_setCtx_self c k _
@[simp] theorem Chip.ctx_modCtx_ne (c : Chip) (k j : Nat) (f : Ctx → Ctx) (h : j ≠ k) : (c.modCtx k f).ctx j = c.ctx j :=
  Chip.ctx_setCtx_ne c k j _ h
@[simp] theorem Chip.setCtx_setCtx (c : Chip) (k : Nat) (x y : Ctx) : (c.setCtx k x).setCtx k y = c.setCtx k y := by
  simp [Chip.setCtx]
@[simp] theorem Chip.modCtx_setCtx (c : Chip) (k : Nat) (x : Ctx) (f : Ctx → Ctx) : (c.setCtx k x).modCtx k f = c.setCtx k (f x) := by
  simp [Chip.modCtx]

end Machine
end Sys2Proof
end

