-- ==== Sys2Proof/Laws/Fields.lean ====
section
/-! SUPPORT. The fields of the package that an update leaves alone, one lemma per field per update. -/
namespace Sys2Proof.Machine
open Sys2Proof

/-! ### setCtx -/
@[simp] theorem Chip.setCtx_wr (c : Chip) (k : Nat) (x : Ctx) : (c.setCtx k x).wr = c.wr := rfl
@[simp] theorem Chip.setCtx_cur (c : Chip) (k : Nat) (x : Ctx) : (c.setCtx k x).cur = c.cur := rfl
@[simp] theorem Chip.setCtx_turn (c : Chip) (k : Nat) (x : Ctx) : (c.setCtx k x).turn = c.turn := rfl
@[simp] theorem Chip.setCtx_group (c : Chip) (k : Nat) (x : Ctx) : (c.setCtx k x).group = c.group := rfl
@[simp] theorem Chip.setCtx_cores (c : Chip) (k : Nat) (x : Ctx) : (c.setCtx k x).cores = c.cores := rfl
@[simp] theorem Chip.setCtx_homes (c : Chip) (k : Nat) (x : Ctx) : (c.setCtx k x).homes = c.homes := rfl
@[simp] theorem Chip.setCtx_dies (c : Chip) (k : Nat) (x : Ctx) : (c.setCtx k x).dies = c.dies := rfl
@[simp] theorem Chip.setCtx_vis (c : Chip) (k : Nat) (x : Ctx) : (c.setCtx k x).vis = c.vis := rfl
@[simp] theorem Chip.setCtx_queues (c : Chip) (k : Nat) (x : Ctx) : (c.setCtx k x).queues = c.queues := rfl
@[simp] theorem Chip.setCtx_mons (c : Chip) (k : Nat) (x : Ctx) : (c.setCtx k x).mons = c.mons := rfl
@[simp] theorem Chip.setCtx_rows (c : Chip) (k : Nat) (x : Ctx) : (c.setCtx k x).rows = c.rows := rfl
@[simp] theorem Chip.setCtx_pcores (c : Chip) (k : Nat) (x : Ctx) : (c.setCtx k x).pcores = c.pcores := rfl
@[simp] theorem Chip.setCtx_ports (c : Chip) (k : Nat) (x : Ctx) : (c.setCtx k x).ports = c.ports := rfl
@[simp] theorem Chip.setCtx_slset (c : Chip) (k : Nat) (x : Ctx) : (c.setCtx k x).slset = c.slset := rfl
@[simp] theorem Chip.setCtx_bridge (c : Chip) (k : Nat) (x : Ctx) : (c.setCtx k x).bridge = c.bridge := rfl
@[simp] theorem Chip.setCtx_bad (c : Chip) (k : Nat) (x : Ctx) : (c.setCtx k x).bad = c.bad := rfl
@[simp] theorem Chip.setCtx_tlb (c : Chip) (k : Nat) (x : Ctx) : (c.setCtx k x).tlb = c.tlb := rfl
@[simp] theorem Chip.setCtx_wrote (c : Chip) (k : Nat) (x : Ctx) : (c.setCtx k x).wrote = c.wrote := rfl
@[simp] theorem Chip.setCtx_power (c : Chip) (k : Nat) (x : Ctx) : (c.setCtx k x).power = c.power := rfl
@[simp] theorem Chip.setCtx_tan (c : Chip) (k : Nat) (x : Ctx) : (c.setCtx k x).tan = c.tan := rfl
@[simp] theorem Chip.setCtx_dumpValid (c : Chip) (k : Nat) (x : Ctx) : (c.setCtx k x).dumpValid = c.dumpValid := rfl
@[simp] theorem Chip.setCtx_dumpBase (c : Chip) (k : Nat) (x : Ctx) : (c.setCtx k x).dumpBase = c.dumpBase := rfl
@[simp] theorem Chip.setCtx_stopped (c : Chip) (k : Nat) (x : Ctx) : (c.setCtx k x).stopped = c.stopped := rfl
@[simp] theorem Chip.setCtx_tags (c : Chip) (k : Nat) (x : Ctx) : (c.setCtx k x).tags = c.tags := rfl
@[simp] theorem Chip.setCtx_net (c : Chip) (k : Nat) (x : Ctx) : (c.setCtx k x).net = c.net := rfl
@[simp] theorem Chip.setCtx_inputs (c : Chip) (k : Nat) (x : Ctx) : (c.setCtx k x).inputs = c.inputs := rfl
@[simp] theorem Chip.setCtx_outbox (c : Chip) (k : Nat) (x : Ctx) : (c.setCtx k x).outbox = c.outbox := rfl
@[simp] theorem Chip.setCtx_shipped (c : Chip) (k : Nat) (x : Ctx) : (c.setCtx k x).shipped = c.shipped := rfl
@[simp] theorem Chip.setCtx_replays (c : Chip) (k : Nat) (x : Ctx) : (c.setCtx k x).replays = c.replays := rfl
@[simp] theorem Chip.setCtx_did (c : Chip) (k : Nat) (x : Ctx) : (c.setCtx k x).did = c.did := rfl
@[simp] theorem Chip.setCtx_didAt (c : Chip) (k : Nat) (x : Ctx) : (c.setCtx k x).didAt = c.didAt := rfl
@[simp] theorem Chip.setCtx_serial (c : Chip) (k : Nat) (x : Ctx) : (c.setCtx k x).serial = c.serial := rfl
@[simp] theorem Chip.setCtx_picks (c : Chip) (k : Nat) (x : Ctx) : (c.setCtx k x).picks = c.picks := rfl
@[simp] theorem Chip.setCtx_frees (c : Chip) (k : Nat) (x : Ctx) : (c.setCtx k x).frees = c.frees := rfl
@[simp] theorem Chip.setCtx_nextRefill (c : Chip) (k : Nat) (x : Ctx) : (c.setCtx k x).nextRefill = c.nextRefill := rfl
@[simp] theorem Chip.setCtx_nextSample (c : Chip) (k : Nat) (x : Ctx) : (c.setCtx k x).nextSample = c.nextSample := rfl
@[simp] theorem Chip.setCtx_nextInterval (c : Chip) (k : Nat) (x : Ctx) : (c.setCtx k x).nextInterval = c.nextInterval := rfl
@[simp] theorem Chip.setCtx_nextRamp (c : Chip) (k : Nat) (x : Ctx) : (c.setCtx k x).nextRamp = c.nextRamp := rfl

/-! ### modCtx -/
@[simp] theorem Chip.modCtx_wr (c : Chip) (k : Nat) (f : Ctx → Ctx) : (c.modCtx k f).wr = c.wr := rfl
@[simp] theorem Chip.modCtx_cur (c : Chip) (k : Nat) (f : Ctx → Ctx) : (c.modCtx k f).cur = c.cur := rfl
@[simp] theorem Chip.modCtx_turn (c : Chip) (k : Nat) (f : Ctx → Ctx) : (c.modCtx k f).turn = c.turn := rfl
@[simp] theorem Chip.modCtx_group (c : Chip) (k : Nat) (f : Ctx → Ctx) : (c.modCtx k f).group = c.group := rfl
@[simp] theorem Chip.modCtx_cores (c : Chip) (k : Nat) (f : Ctx → Ctx) : (c.modCtx k f).cores = c.cores := rfl
@[simp] theorem Chip.modCtx_homes (c : Chip) (k : Nat) (f : Ctx → Ctx) : (c.modCtx k f).homes = c.homes := rfl
@[simp] theorem Chip.modCtx_dies (c : Chip) (k : Nat) (f : Ctx → Ctx) : (c.modCtx k f).dies = c.dies := rfl
@[simp] theorem Chip.modCtx_vis (c : Chip) (k : Nat) (f : Ctx → Ctx) : (c.modCtx k f).vis = c.vis := rfl
@[simp] theorem Chip.modCtx_queues (c : Chip) (k : Nat) (f : Ctx → Ctx) : (c.modCtx k f).queues = c.queues := rfl
@[simp] theorem Chip.modCtx_mons (c : Chip) (k : Nat) (f : Ctx → Ctx) : (c.modCtx k f).mons = c.mons := rfl
@[simp] theorem Chip.modCtx_rows (c : Chip) (k : Nat) (f : Ctx → Ctx) : (c.modCtx k f).rows = c.rows := rfl
@[simp] theorem Chip.modCtx_pcores (c : Chip) (k : Nat) (f : Ctx → Ctx) : (c.modCtx k f).pcores = c.pcores := rfl
@[simp] theorem Chip.modCtx_ports (c : Chip) (k : Nat) (f : Ctx → Ctx) : (c.modCtx k f).ports = c.ports := rfl
@[simp] theorem Chip.modCtx_slset (c : Chip) (k : Nat) (f : Ctx → Ctx) : (c.modCtx k f).slset = c.slset := rfl
@[simp] theorem Chip.modCtx_bridge (c : Chip) (k : Nat) (f : Ctx → Ctx) : (c.modCtx k f).bridge = c.bridge := rfl
@[simp] theorem Chip.modCtx_bad (c : Chip) (k : Nat) (f : Ctx → Ctx) : (c.modCtx k f).bad = c.bad := rfl
@[simp] theorem Chip.modCtx_tlb (c : Chip) (k : Nat) (f : Ctx → Ctx) : (c.modCtx k f).tlb = c.tlb := rfl
@[simp] theorem Chip.modCtx_wrote (c : Chip) (k : Nat) (f : Ctx → Ctx) : (c.modCtx k f).wrote = c.wrote := rfl
@[simp] theorem Chip.modCtx_power (c : Chip) (k : Nat) (f : Ctx → Ctx) : (c.modCtx k f).power = c.power := rfl
@[simp] theorem Chip.modCtx_tan (c : Chip) (k : Nat) (f : Ctx → Ctx) : (c.modCtx k f).tan = c.tan := rfl
@[simp] theorem Chip.modCtx_dumpValid (c : Chip) (k : Nat) (f : Ctx → Ctx) : (c.modCtx k f).dumpValid = c.dumpValid := rfl
@[simp] theorem Chip.modCtx_dumpBase (c : Chip) (k : Nat) (f : Ctx → Ctx) : (c.modCtx k f).dumpBase = c.dumpBase := rfl
@[simp] theorem Chip.modCtx_stopped (c : Chip) (k : Nat) (f : Ctx → Ctx) : (c.modCtx k f).stopped = c.stopped := rfl
@[simp] theorem Chip.modCtx_tags (c : Chip) (k : Nat) (f : Ctx → Ctx) : (c.modCtx k f).tags = c.tags := rfl
@[simp] theorem Chip.modCtx_net (c : Chip) (k : Nat) (f : Ctx → Ctx) : (c.modCtx k f).net = c.net := rfl
@[simp] theorem Chip.modCtx_inputs (c : Chip) (k : Nat) (f : Ctx → Ctx) : (c.modCtx k f).inputs = c.inputs := rfl
@[simp] theorem Chip.modCtx_outbox (c : Chip) (k : Nat) (f : Ctx → Ctx) : (c.modCtx k f).outbox = c.outbox := rfl
@[simp] theorem Chip.modCtx_shipped (c : Chip) (k : Nat) (f : Ctx → Ctx) : (c.modCtx k f).shipped = c.shipped := rfl
@[simp] theorem Chip.modCtx_replays (c : Chip) (k : Nat) (f : Ctx → Ctx) : (c.modCtx k f).replays = c.replays := rfl
@[simp] theorem Chip.modCtx_did (c : Chip) (k : Nat) (f : Ctx → Ctx) : (c.modCtx k f).did = c.did := rfl
@[simp] theorem Chip.modCtx_didAt (c : Chip) (k : Nat) (f : Ctx → Ctx) : (c.modCtx k f).didAt = c.didAt := rfl
@[simp] theorem Chip.modCtx_serial (c : Chip) (k : Nat) (f : Ctx → Ctx) : (c.modCtx k f).serial = c.serial := rfl
@[simp] theorem Chip.modCtx_picks (c : Chip) (k : Nat) (f : Ctx → Ctx) : (c.modCtx k f).picks = c.picks := rfl
@[simp] theorem Chip.modCtx_frees (c : Chip) (k : Nat) (f : Ctx → Ctx) : (c.modCtx k f).frees = c.frees := rfl
@[simp] theorem Chip.modCtx_nextRefill (c : Chip) (k : Nat) (f : Ctx → Ctx) : (c.modCtx k f).nextRefill = c.nextRefill := rfl
@[simp] theorem Chip.modCtx_nextSample (c : Chip) (k : Nat) (f : Ctx → Ctx) : (c.modCtx k f).nextSample = c.nextSample := rfl
@[simp] theorem Chip.modCtx_nextInterval (c : Chip) (k : Nat) (f : Ctx → Ctx) : (c.modCtx k f).nextInterval = c.nextInterval := rfl
@[simp] theorem Chip.modCtx_nextRamp (c : Chip) (k : Nat) (f : Ctx → Ctx) : (c.modCtx k f).nextRamp = c.nextRamp := rfl

/-! ### modCore -/
@[simp] theorem Chip.modCore_wr (c : Chip) (k : Nat) (f : Core → Core) : (c.modCore k f).wr = c.wr := rfl
@[simp] theorem Chip.modCore_cur (c : Chip) (k : Nat) (f : Core → Core) : (c.modCore k f).cur = c.cur := rfl
@[simp] theorem Chip.modCore_turn (c : Chip) (k : Nat) (f : Core → Core) : (c.modCore k f).turn = c.turn := rfl
@[simp] theorem Chip.modCore_group (c : Chip) (k : Nat) (f : Core → Core) : (c.modCore k f).group = c.group := rfl
@[simp] theorem Chip.modCore_ctxs (c : Chip) (k : Nat) (f : Core → Core) : (c.modCore k f).ctxs = c.ctxs := rfl
@[simp] theorem Chip.modCore_homes (c : Chip) (k : Nat) (f : Core → Core) : (c.modCore k f).homes = c.homes := rfl
@[simp] theorem Chip.modCore_dies (c : Chip) (k : Nat) (f : Core → Core) : (c.modCore k f).dies = c.dies := rfl
@[simp] theorem Chip.modCore_vis (c : Chip) (k : Nat) (f : Core → Core) : (c.modCore k f).vis = c.vis := rfl
@[simp] theorem Chip.modCore_queues (c : Chip) (k : Nat) (f : Core → Core) : (c.modCore k f).queues = c.queues := rfl
@[simp] theorem Chip.modCore_mons (c : Chip) (k : Nat) (f : Core → Core) : (c.modCore k f).mons = c.mons := rfl
@[simp] theorem Chip.modCore_rows (c : Chip) (k : Nat) (f : Core → Core) : (c.modCore k f).rows = c.rows := rfl
@[simp] theorem Chip.modCore_pcores (c : Chip) (k : Nat) (f : Core → Core) : (c.modCore k f).pcores = c.pcores := rfl
@[simp] theorem Chip.modCore_ports (c : Chip) (k : Nat) (f : Core → Core) : (c.modCore k f).ports = c.ports := rfl
@[simp] theorem Chip.modCore_slset (c : Chip) (k : Nat) (f : Core → Core) : (c.modCore k f).slset = c.slset := rfl
@[simp] theorem Chip.modCore_bridge (c : Chip) (k : Nat) (f : Core → Core) : (c.modCore k f).bridge = c.bridge := rfl
@[simp] theorem Chip.modCore_bad (c : Chip) (k : Nat) (f : Core → Core) : (c.modCore k f).bad = c.bad := rfl
@[simp] theorem Chip.modCore_tlb (c : Chip) (k : Nat) (f : Core → Core) : (c.modCore k f).tlb = c.tlb := rfl
@[simp] theorem Chip.modCore_wrote (c : Chip) (k : Nat) (f : Core → Core) : (c.modCore k f).wrote = c.wrote := rfl
@[simp] theorem Chip.modCore_power (c : Chip) (k : Nat) (f : Core → Core) : (c.modCore k f).power = c.power := rfl
@[simp] theorem Chip.modCore_tan (c : Chip) (k : Nat) (f : Core → Core) : (c.modCore k f).tan = c.tan := rfl
@[simp] theorem Chip.modCore_dumpValid (c : Chip) (k : Nat) (f : Core → Core) : (c.modCore k f).dumpValid = c.dumpValid := rfl
@[simp] theorem Chip.modCore_dumpBase (c : Chip) (k : Nat) (f : Core → Core) : (c.modCore k f).dumpBase = c.dumpBase := rfl
@[simp] theorem Chip.modCore_stopped (c : Chip) (k : Nat) (f : Core → Core) : (c.modCore k f).stopped = c.stopped := rfl
@[simp] theorem Chip.modCore_tags (c : Chip) (k : Nat) (f : Core → Core) : (c.modCore k f).tags = c.tags := rfl
@[simp] theorem Chip.modCore_net (c : Chip) (k : Nat) (f : Core → Core) : (c.modCore k f).net = c.net := rfl
@[simp] theorem Chip.modCore_inputs (c : Chip) (k : Nat) (f : Core → Core) : (c.modCore k f).inputs = c.inputs := rfl
@[simp] theorem Chip.modCore_outbox (c : Chip) (k : Nat) (f : Core → Core) : (c.modCore k f).outbox = c.outbox := rfl
@[simp] theorem Chip.modCore_shipped (c : Chip) (k : Nat) (f : Core → Core) : (c.modCore k f).shipped = c.shipped := rfl
@[simp] theorem Chip.modCore_replays (c : Chip) (k : Nat) (f : Core → Core) : (c.modCore k f).replays = c.replays := rfl
@[simp] theorem Chip.modCore_did (c : Chip) (k : Nat) (f : Core → Core) : (c.modCore k f).did = c.did := rfl
@[simp] theorem Chip.modCore_didAt (c : Chip) (k : Nat) (f : Core → Core) : (c.modCore k f).didAt = c.didAt := rfl
@[simp] theorem Chip.modCore_serial (c : Chip) (k : Nat) (f : Core → Core) : (c.modCore k f).serial = c.serial := rfl
@[simp] theorem Chip.modCore_picks (c : Chip) (k : Nat) (f : Core → Core) : (c.modCore k f).picks = c.picks := rfl
@[simp] theorem Chip.modCore_frees (c : Chip) (k : Nat) (f : Core → Core) : (c.modCore k f).frees = c.frees := rfl
@[simp] theorem Chip.modCore_nextRefill (c : Chip) (k : Nat) (f : Core → Core) : (c.modCore k f).nextRefill = c.nextRefill := rfl
@[simp] theorem Chip.modCore_nextSample (c : Chip) (k : Nat) (f : Core → Core) : (c.modCore k f).nextSample = c.nextSample := rfl
@[simp] theorem Chip.modCore_nextInterval (c : Chip) (k : Nat) (f : Core → Core) : (c.modCore k f).nextInterval = c.nextInterval := rfl
@[simp] theorem Chip.modCore_nextRamp (c : Chip) (k : Nat) (f : Core → Core) : (c.modCore k f).nextRamp = c.nextRamp := rfl

/-! ### modHome -/
@[simp] theorem Chip.modHome_wr (c : Chip) (k : Nat) (f : Home → Home) : (c.modHome k f).wr = c.wr := rfl
@[simp] theorem Chip.modHome_cur (c : Chip) (k : Nat) (f : Home → Home) : (c.modHome k f).cur = c.cur := rfl
@[simp] theorem Chip.modHome_turn (c : Chip) (k : Nat) (f : Home → Home) : (c.modHome k f).turn = c.turn := rfl
@[simp] theorem Chip.modHome_group (c : Chip) (k : Nat) (f : Home → Home) : (c.modHome k f).group = c.group := rfl
@[simp] theorem Chip.modHome_ctxs (c : Chip) (k : Nat) (f : Home → Home) : (c.modHome k f).ctxs = c.ctxs := rfl
@[simp] theorem Chip.modHome_cores (c : Chip) (k : Nat) (f : Home → Home) : (c.modHome k f).cores = c.cores := rfl
@[simp] theorem Chip.modHome_dies (c : Chip) (k : Nat) (f : Home → Home) : (c.modHome k f).dies = c.dies := rfl
@[simp] theorem Chip.modHome_vis (c : Chip) (k : Nat) (f : Home → Home) : (c.modHome k f).vis = c.vis := rfl
@[simp] theorem Chip.modHome_queues (c : Chip) (k : Nat) (f : Home → Home) : (c.modHome k f).queues = c.queues := rfl
@[simp] theorem Chip.modHome_mons (c : Chip) (k : Nat) (f : Home → Home) : (c.modHome k f).mons = c.mons := rfl
@[simp] theorem Chip.modHome_rows (c : Chip) (k : Nat) (f : Home → Home) : (c.modHome k f).rows = c.rows := rfl
@[simp] theorem Chip.modHome_pcores (c : Chip) (k : Nat) (f : Home → Home) : (c.modHome k f).pcores = c.pcores := rfl
@[simp] theorem Chip.modHome_ports (c : Chip) (k : Nat) (f : Home → Home) : (c.modHome k f).ports = c.ports := rfl
@[simp] theorem Chip.modHome_slset (c : Chip) (k : Nat) (f : Home → Home) : (c.modHome k f).slset = c.slset := rfl
@[simp] theorem Chip.modHome_bridge (c : Chip) (k : Nat) (f : Home → Home) : (c.modHome k f).bridge = c.bridge := rfl
@[simp] theorem Chip.modHome_bad (c : Chip) (k : Nat) (f : Home → Home) : (c.modHome k f).bad = c.bad := rfl
@[simp] theorem Chip.modHome_tlb (c : Chip) (k : Nat) (f : Home → Home) : (c.modHome k f).tlb = c.tlb := rfl
@[simp] theorem Chip.modHome_wrote (c : Chip) (k : Nat) (f : Home → Home) : (c.modHome k f).wrote = c.wrote := rfl
@[simp] theorem Chip.modHome_power (c : Chip) (k : Nat) (f : Home → Home) : (c.modHome k f).power = c.power := rfl
@[simp] theorem Chip.modHome_tan (c : Chip) (k : Nat) (f : Home → Home) : (c.modHome k f).tan = c.tan := rfl
@[simp] theorem Chip.modHome_dumpValid (c : Chip) (k : Nat) (f : Home → Home) : (c.modHome k f).dumpValid = c.dumpValid := rfl
@[simp] theorem Chip.modHome_dumpBase (c : Chip) (k : Nat) (f : Home → Home) : (c.modHome k f).dumpBase = c.dumpBase := rfl
@[simp] theorem Chip.modHome_stopped (c : Chip) (k : Nat) (f : Home → Home) : (c.modHome k f).stopped = c.stopped := rfl
@[simp] theorem Chip.modHome_tags (c : Chip) (k : Nat) (f : Home → Home) : (c.modHome k f).tags = c.tags := rfl
@[simp] theorem Chip.modHome_net (c : Chip) (k : Nat) (f : Home → Home) : (c.modHome k f).net = c.net := rfl
@[simp] theorem Chip.modHome_inputs (c : Chip) (k : Nat) (f : Home → Home) : (c.modHome k f).inputs = c.inputs := rfl
@[simp] theorem Chip.modHome_outbox (c : Chip) (k : Nat) (f : Home → Home) : (c.modHome k f).outbox = c.outbox := rfl
@[simp] theorem Chip.modHome_shipped (c : Chip) (k : Nat) (f : Home → Home) : (c.modHome k f).shipped = c.shipped := rfl
@[simp] theorem Chip.modHome_replays (c : Chip) (k : Nat) (f : Home → Home) : (c.modHome k f).replays = c.replays := rfl
@[simp] theorem Chip.modHome_did (c : Chip) (k : Nat) (f : Home → Home) : (c.modHome k f).did = c.did := rfl
@[simp] theorem Chip.modHome_didAt (c : Chip) (k : Nat) (f : Home → Home) : (c.modHome k f).didAt = c.didAt := rfl
@[simp] theorem Chip.modHome_serial (c : Chip) (k : Nat) (f : Home → Home) : (c.modHome k f).serial = c.serial := rfl
@[simp] theorem Chip.modHome_picks (c : Chip) (k : Nat) (f : Home → Home) : (c.modHome k f).picks = c.picks := rfl
@[simp] theorem Chip.modHome_frees (c : Chip) (k : Nat) (f : Home → Home) : (c.modHome k f).frees = c.frees := rfl
@[simp] theorem Chip.modHome_nextRefill (c : Chip) (k : Nat) (f : Home → Home) : (c.modHome k f).nextRefill = c.nextRefill := rfl
@[simp] theorem Chip.modHome_nextSample (c : Chip) (k : Nat) (f : Home → Home) : (c.modHome k f).nextSample = c.nextSample := rfl
@[simp] theorem Chip.modHome_nextInterval (c : Chip) (k : Nat) (f : Home → Home) : (c.modHome k f).nextInterval = c.nextInterval := rfl
@[simp] theorem Chip.modHome_nextRamp (c : Chip) (k : Nat) (f : Home → Home) : (c.modHome k f).nextRamp = c.nextRamp := rfl

/-! ### modDie -/
@[simp] theorem Chip.modDie_wr (c : Chip) (k : Nat) (f : Die → Die) : (c.modDie k f).wr = c.wr := rfl
@[simp] theorem Chip.modDie_cur (c : Chip) (k : Nat) (f : Die → Die) : (c.modDie k f).cur = c.cur := rfl
@[simp] theorem Chip.modDie_turn (c : Chip) (k : Nat) (f : Die → Die) : (c.modDie k f).turn = c.turn := rfl
@[simp] theorem Chip.modDie_group (c : Chip) (k : Nat) (f : Die → Die) : (c.modDie k f).group = c.group := rfl
@[simp] theorem Chip.modDie_ctxs (c : Chip) (k : Nat) (f : Die → Die) : (c.modDie k f).ctxs = c.ctxs := rfl
@[simp] theorem Chip.modDie_cores (c : Chip) (k : Nat) (f : Die → Die) : (c.modDie k f).cores = c.cores := rfl
@[simp] theorem Chip.modDie_homes (c : Chip) (k : Nat) (f : Die → Die) : (c.modDie k f).homes = c.homes := rfl
@[simp] theorem Chip.modDie_vis (c : Chip) (k : Nat) (f : Die → Die) : (c.modDie k f).vis = c.vis := rfl
@[simp] theorem Chip.modDie_queues (c : Chip) (k : Nat) (f : Die → Die) : (c.modDie k f).queues = c.queues := rfl
@[simp] theorem Chip.modDie_mons (c : Chip) (k : Nat) (f : Die → Die) : (c.modDie k f).mons = c.mons := rfl
@[simp] theorem Chip.modDie_rows (c : Chip) (k : Nat) (f : Die → Die) : (c.modDie k f).rows = c.rows := rfl
@[simp] theorem Chip.modDie_pcores (c : Chip) (k : Nat) (f : Die → Die) : (c.modDie k f).pcores = c.pcores := rfl
@[simp] theorem Chip.modDie_ports (c : Chip) (k : Nat) (f : Die → Die) : (c.modDie k f).ports = c.ports := rfl
@[simp] theorem Chip.modDie_slset (c : Chip) (k : Nat) (f : Die → Die) : (c.modDie k f).slset = c.slset := rfl
@[simp] theorem Chip.modDie_bridge (c : Chip) (k : Nat) (f : Die → Die) : (c.modDie k f).bridge = c.bridge := rfl
@[simp] theorem Chip.modDie_bad (c : Chip) (k : Nat) (f : Die → Die) : (c.modDie k f).bad = c.bad := rfl
@[simp] theorem Chip.modDie_tlb (c : Chip) (k : Nat) (f : Die → Die) : (c.modDie k f).tlb = c.tlb := rfl
@[simp] theorem Chip.modDie_wrote (c : Chip) (k : Nat) (f : Die → Die) : (c.modDie k f).wrote = c.wrote := rfl
@[simp] theorem Chip.modDie_power (c : Chip) (k : Nat) (f : Die → Die) : (c.modDie k f).power = c.power := rfl
@[simp] theorem Chip.modDie_tan (c : Chip) (k : Nat) (f : Die → Die) : (c.modDie k f).tan = c.tan := rfl
@[simp] theorem Chip.modDie_dumpValid (c : Chip) (k : Nat) (f : Die → Die) : (c.modDie k f).dumpValid = c.dumpValid := rfl
@[simp] theorem Chip.modDie_dumpBase (c : Chip) (k : Nat) (f : Die → Die) : (c.modDie k f).dumpBase = c.dumpBase := rfl
@[simp] theorem Chip.modDie_stopped (c : Chip) (k : Nat) (f : Die → Die) : (c.modDie k f).stopped = c.stopped := rfl
@[simp] theorem Chip.modDie_tags (c : Chip) (k : Nat) (f : Die → Die) : (c.modDie k f).tags = c.tags := rfl
@[simp] theorem Chip.modDie_net (c : Chip) (k : Nat) (f : Die → Die) : (c.modDie k f).net = c.net := rfl
@[simp] theorem Chip.modDie_inputs (c : Chip) (k : Nat) (f : Die → Die) : (c.modDie k f).inputs = c.inputs := rfl
@[simp] theorem Chip.modDie_outbox (c : Chip) (k : Nat) (f : Die → Die) : (c.modDie k f).outbox = c.outbox := rfl
@[simp] theorem Chip.modDie_shipped (c : Chip) (k : Nat) (f : Die → Die) : (c.modDie k f).shipped = c.shipped := rfl
@[simp] theorem Chip.modDie_replays (c : Chip) (k : Nat) (f : Die → Die) : (c.modDie k f).replays = c.replays := rfl
@[simp] theorem Chip.modDie_did (c : Chip) (k : Nat) (f : Die → Die) : (c.modDie k f).did = c.did := rfl
@[simp] theorem Chip.modDie_didAt (c : Chip) (k : Nat) (f : Die → Die) : (c.modDie k f).didAt = c.didAt := rfl
@[simp] theorem Chip.modDie_serial (c : Chip) (k : Nat) (f : Die → Die) : (c.modDie k f).serial = c.serial := rfl
@[simp] theorem Chip.modDie_picks (c : Chip) (k : Nat) (f : Die → Die) : (c.modDie k f).picks = c.picks := rfl
@[simp] theorem Chip.modDie_frees (c : Chip) (k : Nat) (f : Die → Die) : (c.modDie k f).frees = c.frees := rfl
@[simp] theorem Chip.modDie_nextRefill (c : Chip) (k : Nat) (f : Die → Die) : (c.modDie k f).nextRefill = c.nextRefill := rfl
@[simp] theorem Chip.modDie_nextSample (c : Chip) (k : Nat) (f : Die → Die) : (c.modDie k f).nextSample = c.nextSample := rfl
@[simp] theorem Chip.modDie_nextInterval (c : Chip) (k : Nat) (f : Die → Die) : (c.modDie k f).nextInterval = c.nextInterval := rfl
@[simp] theorem Chip.modDie_nextRamp (c : Chip) (k : Nat) (f : Die → Die) : (c.modDie k f).nextRamp = c.nextRamp := rfl

/-! ### modVi -/
@[simp] theorem Chip.modVi_wr (c : Chip) (k : Nat) (f : Vi → Vi) : (c.modVi k f).wr = c.wr := rfl
@[simp] theorem Chip.modVi_cur (c : Chip) (k : Nat) (f : Vi → Vi) : (c.modVi k f).cur = c.cur := rfl
@[simp] theorem Chip.modVi_turn (c : Chip) (k : Nat) (f : Vi → Vi) : (c.modVi k f).turn = c.turn := rfl
@[simp] theorem Chip.modVi_group (c : Chip) (k : Nat) (f : Vi → Vi) : (c.modVi k f).group = c.group := rfl
@[simp] theorem Chip.modVi_ctxs (c : Chip) (k : Nat) (f : Vi → Vi) : (c.modVi k f).ctxs = c.ctxs := rfl
@[simp] theorem Chip.modVi_cores (c : Chip) (k : Nat) (f : Vi → Vi) : (c.modVi k f).cores = c.cores := rfl
@[simp] theorem Chip.modVi_homes (c : Chip) (k : Nat) (f : Vi → Vi) : (c.modVi k f).homes = c.homes := rfl
@[simp] theorem Chip.modVi_dies (c : Chip) (k : Nat) (f : Vi → Vi) : (c.modVi k f).dies = c.dies := rfl
@[simp] theorem Chip.modVi_queues (c : Chip) (k : Nat) (f : Vi → Vi) : (c.modVi k f).queues = c.queues := rfl
@[simp] theorem Chip.modVi_mons (c : Chip) (k : Nat) (f : Vi → Vi) : (c.modVi k f).mons = c.mons := rfl
@[simp] theorem Chip.modVi_rows (c : Chip) (k : Nat) (f : Vi → Vi) : (c.modVi k f).rows = c.rows := rfl
@[simp] theorem Chip.modVi_pcores (c : Chip) (k : Nat) (f : Vi → Vi) : (c.modVi k f).pcores = c.pcores := rfl
@[simp] theorem Chip.modVi_ports (c : Chip) (k : Nat) (f : Vi → Vi) : (c.modVi k f).ports = c.ports := rfl
@[simp] theorem Chip.modVi_slset (c : Chip) (k : Nat) (f : Vi → Vi) : (c.modVi k f).slset = c.slset := rfl
@[simp] theorem Chip.modVi_bridge (c : Chip) (k : Nat) (f : Vi → Vi) : (c.modVi k f).bridge = c.bridge := rfl
@[simp] theorem Chip.modVi_bad (c : Chip) (k : Nat) (f : Vi → Vi) : (c.modVi k f).bad = c.bad := rfl
@[simp] theorem Chip.modVi_tlb (c : Chip) (k : Nat) (f : Vi → Vi) : (c.modVi k f).tlb = c.tlb := rfl
@[simp] theorem Chip.modVi_wrote (c : Chip) (k : Nat) (f : Vi → Vi) : (c.modVi k f).wrote = c.wrote := rfl
@[simp] theorem Chip.modVi_power (c : Chip) (k : Nat) (f : Vi → Vi) : (c.modVi k f).power = c.power := rfl
@[simp] theorem Chip.modVi_tan (c : Chip) (k : Nat) (f : Vi → Vi) : (c.modVi k f).tan = c.tan := rfl
@[simp] theorem Chip.modVi_dumpValid (c : Chip) (k : Nat) (f : Vi → Vi) : (c.modVi k f).dumpValid = c.dumpValid := rfl
@[simp] theorem Chip.modVi_dumpBase (c : Chip) (k : Nat) (f : Vi → Vi) : (c.modVi k f).dumpBase = c.dumpBase := rfl
@[simp] theorem Chip.modVi_stopped (c : Chip) (k : Nat) (f : Vi → Vi) : (c.modVi k f).stopped = c.stopped := rfl
@[simp] theorem Chip.modVi_tags (c : Chip) (k : Nat) (f : Vi → Vi) : (c.modVi k f).tags = c.tags := rfl
@[simp] theorem Chip.modVi_net (c : Chip) (k : Nat) (f : Vi → Vi) : (c.modVi k f).net = c.net := rfl
@[simp] theorem Chip.modVi_inputs (c : Chip) (k : Nat) (f : Vi → Vi) : (c.modVi k f).inputs = c.inputs := rfl
@[simp] theorem Chip.modVi_outbox (c : Chip) (k : Nat) (f : Vi → Vi) : (c.modVi k f).outbox = c.outbox := rfl
@[simp] theorem Chip.modVi_shipped (c : Chip) (k : Nat) (f : Vi → Vi) : (c.modVi k f).shipped = c.shipped := rfl
@[simp] theorem Chip.modVi_replays (c : Chip) (k : Nat) (f : Vi → Vi) : (c.modVi k f).replays = c.replays := rfl
@[simp] theorem Chip.modVi_did (c : Chip) (k : Nat) (f : Vi → Vi) : (c.modVi k f).did = c.did := rfl
@[simp] theorem Chip.modVi_didAt (c : Chip) (k : Nat) (f : Vi → Vi) : (c.modVi k f).didAt = c.didAt := rfl
@[simp] theorem Chip.modVi_serial (c : Chip) (k : Nat) (f : Vi → Vi) : (c.modVi k f).serial = c.serial := rfl
@[simp] theorem Chip.modVi_picks (c : Chip) (k : Nat) (f : Vi → Vi) : (c.modVi k f).picks = c.picks := rfl
@[simp] theorem Chip.modVi_frees (c : Chip) (k : Nat) (f : Vi → Vi) : (c.modVi k f).frees = c.frees := rfl
@[simp] theorem Chip.modVi_nextRefill (c : Chip) (k : Nat) (f : Vi → Vi) : (c.modVi k f).nextRefill = c.nextRefill := rfl
@[simp] theorem Chip.modVi_nextSample (c : Chip) (k : Nat) (f : Vi → Vi) : (c.modVi k f).nextSample = c.nextSample := rfl
@[simp] theorem Chip.modVi_nextInterval (c : Chip) (k : Nat) (f : Vi → Vi) : (c.modVi k f).nextInterval = c.nextInterval := rfl
@[simp] theorem Chip.modVi_nextRamp (c : Chip) (k : Nat) (f : Vi → Vi) : (c.modVi k f).nextRamp = c.nextRamp := rfl

/-! ### modQueue -/
@[simp] theorem Chip.modQueue_wr (c : Chip) (k : Nat) (f : Queue → Queue) : (c.modQueue k f).wr = c.wr := rfl
@[simp] theorem Chip.modQueue_cur (c : Chip) (k : Nat) (f : Queue → Queue) : (c.modQueue k f).cur = c.cur := rfl
@[simp] theorem Chip.modQueue_turn (c : Chip) (k : Nat) (f : Queue → Queue) : (c.modQueue k f).turn = c.turn := rfl
@[simp] theorem Chip.modQueue_group (c : Chip) (k : Nat) (f : Queue → Queue) : (c.modQueue k f).group = c.group := rfl
@[simp] theorem Chip.modQueue_ctxs (c : Chip) (k : Nat) (f : Queue → Queue) : (c.modQueue k f).ctxs = c.ctxs := rfl
@[simp] theorem Chip.modQueue_cores (c : Chip) (k : Nat) (f : Queue → Queue) : (c.modQueue k f).cores = c.cores := rfl
@[simp] theorem Chip.modQueue_homes (c : Chip) (k : Nat) (f : Queue → Queue) : (c.modQueue k f).homes = c.homes := rfl
@[simp] theorem Chip.modQueue_dies (c : Chip) (k : Nat) (f : Queue → Queue) : (c.modQueue k f).dies = c.dies := rfl
@[simp] theorem Chip.modQueue_vis (c : Chip) (k : Nat) (f : Queue → Queue) : (c.modQueue k f).vis = c.vis := rfl
@[simp] theorem Chip.modQueue_mons (c : Chip) (k : Nat) (f : Queue → Queue) : (c.modQueue k f).mons = c.mons := rfl
@[simp] theorem Chip.modQueue_rows (c : Chip) (k : Nat) (f : Queue → Queue) : (c.modQueue k f).rows = c.rows := rfl
@[simp] theorem Chip.modQueue_pcores (c : Chip) (k : Nat) (f : Queue → Queue) : (c.modQueue k f).pcores = c.pcores := rfl
@[simp] theorem Chip.modQueue_ports (c : Chip) (k : Nat) (f : Queue → Queue) : (c.modQueue k f).ports = c.ports := rfl
@[simp] theorem Chip.modQueue_slset (c : Chip) (k : Nat) (f : Queue → Queue) : (c.modQueue k f).slset = c.slset := rfl
@[simp] theorem Chip.modQueue_bridge (c : Chip) (k : Nat) (f : Queue → Queue) : (c.modQueue k f).bridge = c.bridge := rfl
@[simp] theorem Chip.modQueue_bad (c : Chip) (k : Nat) (f : Queue → Queue) : (c.modQueue k f).bad = c.bad := rfl
@[simp] theorem Chip.modQueue_tlb (c : Chip) (k : Nat) (f : Queue → Queue) : (c.modQueue k f).tlb = c.tlb := rfl
@[simp] theorem Chip.modQueue_wrote (c : Chip) (k : Nat) (f : Queue → Queue) : (c.modQueue k f).wrote = c.wrote := rfl
@[simp] theorem Chip.modQueue_power (c : Chip) (k : Nat) (f : Queue → Queue) : (c.modQueue k f).power = c.power := rfl
@[simp] theorem Chip.modQueue_tan (c : Chip) (k : Nat) (f : Queue → Queue) : (c.modQueue k f).tan = c.tan := rfl
@[simp] theorem Chip.modQueue_dumpValid (c : Chip) (k : Nat) (f : Queue → Queue) : (c.modQueue k f).dumpValid = c.dumpValid := rfl
@[simp] theorem Chip.modQueue_dumpBase (c : Chip) (k : Nat) (f : Queue → Queue) : (c.modQueue k f).dumpBase = c.dumpBase := rfl
@[simp] theorem Chip.modQueue_stopped (c : Chip) (k : Nat) (f : Queue → Queue) : (c.modQueue k f).stopped = c.stopped := rfl
@[simp] theorem Chip.modQueue_tags (c : Chip) (k : Nat) (f : Queue → Queue) : (c.modQueue k f).tags = c.tags := rfl
@[simp] theorem Chip.modQueue_net (c : Chip) (k : Nat) (f : Queue → Queue) : (c.modQueue k f).net = c.net := rfl
@[simp] theorem Chip.modQueue_inputs (c : Chip) (k : Nat) (f : Queue → Queue) : (c.modQueue k f).inputs = c.inputs := rfl
@[simp] theorem Chip.modQueue_outbox (c : Chip) (k : Nat) (f : Queue → Queue) : (c.modQueue k f).outbox = c.outbox := rfl
@[simp] theorem Chip.modQueue_shipped (c : Chip) (k : Nat) (f : Queue → Queue) : (c.modQueue k f).shipped = c.shipped := rfl
@[simp] theorem Chip.modQueue_replays (c : Chip) (k : Nat) (f : Queue → Queue) : (c.modQueue k f).replays = c.replays := rfl
@[simp] theorem Chip.modQueue_did (c : Chip) (k : Nat) (f : Queue → Queue) : (c.modQueue k f).did = c.did := rfl
@[simp] theorem Chip.modQueue_didAt (c : Chip) (k : Nat) (f : Queue → Queue) : (c.modQueue k f).didAt = c.didAt := rfl
@[simp] theorem Chip.modQueue_serial (c : Chip) (k : Nat) (f : Queue → Queue) : (c.modQueue k f).serial = c.serial := rfl
@[simp] theorem Chip.modQueue_picks (c : Chip) (k : Nat) (f : Queue → Queue) : (c.modQueue k f).picks = c.picks := rfl
@[simp] theorem Chip.modQueue_frees (c : Chip) (k : Nat) (f : Queue → Queue) : (c.modQueue k f).frees = c.frees := rfl
@[simp] theorem Chip.modQueue_nextRefill (c : Chip) (k : Nat) (f : Queue → Queue) : (c.modQueue k f).nextRefill = c.nextRefill := rfl
@[simp] theorem Chip.modQueue_nextSample (c : Chip) (k : Nat) (f : Queue → Queue) : (c.modQueue k f).nextSample = c.nextSample := rfl
@[simp] theorem Chip.modQueue_nextInterval (c : Chip) (k : Nat) (f : Queue → Queue) : (c.modQueue k f).nextInterval = c.nextInterval := rfl
@[simp] theorem Chip.modQueue_nextRamp (c : Chip) (k : Nat) (f : Queue → Queue) : (c.modQueue k f).nextRamp = c.nextRamp := rfl

/-! ### modRow -/
@[simp] theorem Chip.modRow_wr (c : Chip) (k : Nat) (f : Row → Row) : (c.modRow k f).wr = c.wr := rfl
@[simp] theorem Chip.modRow_cur (c : Chip) (k : Nat) (f : Row → Row) : (c.modRow k f).cur = c.cur := rfl
@[simp] theorem Chip.modRow_turn (c : Chip) (k : Nat) (f : Row → Row) : (c.modRow k f).turn = c.turn := rfl
@[simp] theorem Chip.modRow_group (c : Chip) (k : Nat) (f : Row → Row) : (c.modRow k f).group = c.group := rfl
@[simp] theorem Chip.modRow_ctxs (c : Chip) (k : Nat) (f : Row → Row) : (c.modRow k f).ctxs = c.ctxs := rfl
@[simp] theorem Chip.modRow_cores (c : Chip) (k : Nat) (f : Row → Row) : (c.modRow k f).cores = c.cores := rfl
@[simp] theorem Chip.modRow_homes (c : Chip) (k : Nat) (f : Row → Row) : (c.modRow k f).homes = c.homes := rfl
@[simp] theorem Chip.modRow_dies (c : Chip) (k : Nat) (f : Row → Row) : (c.modRow k f).dies = c.dies := rfl
@[simp] theorem Chip.modRow_vis (c : Chip) (k : Nat) (f : Row → Row) : (c.modRow k f).vis = c.vis := rfl
@[simp] theorem Chip.modRow_queues (c : Chip) (k : Nat) (f : Row → Row) : (c.modRow k f).queues = c.queues := rfl
@[simp] theorem Chip.modRow_mons (c : Chip) (k : Nat) (f : Row → Row) : (c.modRow k f).mons = c.mons := rfl
@[simp] theorem Chip.modRow_pcores (c : Chip) (k : Nat) (f : Row → Row) : (c.modRow k f).pcores = c.pcores := rfl
@[simp] theorem Chip.modRow_ports (c : Chip) (k : Nat) (f : Row → Row) : (c.modRow k f).ports = c.ports := rfl
@[simp] theorem Chip.modRow_slset (c : Chip) (k : Nat) (f : Row → Row) : (c.modRow k f).slset = c.slset := rfl
@[simp] theorem Chip.modRow_bridge (c : Chip) (k : Nat) (f : Row → Row) : (c.modRow k f).bridge = c.bridge := rfl
@[simp] theorem Chip.modRow_bad (c : Chip) (k : Nat) (f : Row → Row) : (c.modRow k f).bad = c.bad := rfl
@[simp] theorem Chip.modRow_tlb (c : Chip) (k : Nat) (f : Row → Row) : (c.modRow k f).tlb = c.tlb := rfl
@[simp] theorem Chip.modRow_wrote (c : Chip) (k : Nat) (f : Row → Row) : (c.modRow k f).wrote = c.wrote := rfl
@[simp] theorem Chip.modRow_power (c : Chip) (k : Nat) (f : Row → Row) : (c.modRow k f).power = c.power := rfl
@[simp] theorem Chip.modRow_tan (c : Chip) (k : Nat) (f : Row → Row) : (c.modRow k f).tan = c.tan := rfl
@[simp] theorem Chip.modRow_dumpValid (c : Chip) (k : Nat) (f : Row → Row) : (c.modRow k f).dumpValid = c.dumpValid := rfl
@[simp] theorem Chip.modRow_dumpBase (c : Chip) (k : Nat) (f : Row → Row) : (c.modRow k f).dumpBase = c.dumpBase := rfl
@[simp] theorem Chip.modRow_stopped (c : Chip) (k : Nat) (f : Row → Row) : (c.modRow k f).stopped = c.stopped := rfl
@[simp] theorem Chip.modRow_tags (c : Chip) (k : Nat) (f : Row → Row) : (c.modRow k f).tags = c.tags := rfl
@[simp] theorem Chip.modRow_net (c : Chip) (k : Nat) (f : Row → Row) : (c.modRow k f).net = c.net := rfl
@[simp] theorem Chip.modRow_inputs (c : Chip) (k : Nat) (f : Row → Row) : (c.modRow k f).inputs = c.inputs := rfl
@[simp] theorem Chip.modRow_outbox (c : Chip) (k : Nat) (f : Row → Row) : (c.modRow k f).outbox = c.outbox := rfl
@[simp] theorem Chip.modRow_shipped (c : Chip) (k : Nat) (f : Row → Row) : (c.modRow k f).shipped = c.shipped := rfl
@[simp] theorem Chip.modRow_replays (c : Chip) (k : Nat) (f : Row → Row) : (c.modRow k f).replays = c.replays := rfl
@[simp] theorem Chip.modRow_did (c : Chip) (k : Nat) (f : Row → Row) : (c.modRow k f).did = c.did := rfl
@[simp] theorem Chip.modRow_didAt (c : Chip) (k : Nat) (f : Row → Row) : (c.modRow k f).didAt = c.didAt := rfl
@[simp] theorem Chip.modRow_serial (c : Chip) (k : Nat) (f : Row → Row) : (c.modRow k f).serial = c.serial := rfl
@[simp] theorem Chip.modRow_picks (c : Chip) (k : Nat) (f : Row → Row) : (c.modRow k f).picks = c.picks := rfl
@[simp] theorem Chip.modRow_frees (c : Chip) (k : Nat) (f : Row → Row) : (c.modRow k f).frees = c.frees := rfl
@[simp] theorem Chip.modRow_nextRefill (c : Chip) (k : Nat) (f : Row → Row) : (c.modRow k f).nextRefill = c.nextRefill := rfl
@[simp] theorem Chip.modRow_nextSample (c : Chip) (k : Nat) (f : Row → Row) : (c.modRow k f).nextSample = c.nextSample := rfl
@[simp] theorem Chip.modRow_nextInterval (c : Chip) (k : Nat) (f : Row → Row) : (c.modRow k f).nextInterval = c.nextInterval := rfl
@[simp] theorem Chip.modRow_nextRamp (c : Chip) (k : Nat) (f : Row → Row) : (c.modRow k f).nextRamp = c.nextRamp := rfl

/-! ### modPcore -/
@[simp] theorem Chip.modPcore_wr (c : Chip) (k : Nat) (f : PCore → PCore) : (c.modPcore k f).wr = c.wr := rfl
@[simp] theorem Chip.modPcore_cur (c : Chip) (k : Nat) (f : PCore → PCore) : (c.modPcore k f).cur = c.cur := rfl
@[simp] theorem Chip.modPcore_turn (c : Chip) (k : Nat) (f : PCore → PCore) : (c.modPcore k f).turn = c.turn := rfl
@[simp] theorem Chip.modPcore_group (c : Chip) (k : Nat) (f : PCore → PCore) : (c.modPcore k f).group = c.group := rfl
@[simp] theorem Chip.modPcore_ctxs (c : Chip) (k : Nat) (f : PCore → PCore) : (c.modPcore k f).ctxs = c.ctxs := rfl
@[simp] theorem Chip.modPcore_cores (c : Chip) (k : Nat) (f : PCore → PCore) : (c.modPcore k f).cores = c.cores := rfl
@[simp] theorem Chip.modPcore_homes (c : Chip) (k : Nat) (f : PCore → PCore) : (c.modPcore k f).homes = c.homes := rfl
@[simp] theorem Chip.modPcore_dies (c : Chip) (k : Nat) (f : PCore → PCore) : (c.modPcore k f).dies = c.dies := rfl
@[simp] theorem Chip.modPcore_vis (c : Chip) (k : Nat) (f : PCore → PCore) : (c.modPcore k f).vis = c.vis := rfl
@[simp] theorem Chip.modPcore_queues (c : Chip) (k : Nat) (f : PCore → PCore) : (c.modPcore k f).queues = c.queues := rfl
@[simp] theorem Chip.modPcore_mons (c : Chip) (k : Nat) (f : PCore → PCore) : (c.modPcore k f).mons = c.mons := rfl
@[simp] theorem Chip.modPcore_rows (c : Chip) (k : Nat) (f : PCore → PCore) : (c.modPcore k f).rows = c.rows := rfl
@[simp] theorem Chip.modPcore_ports (c : Chip) (k : Nat) (f : PCore → PCore) : (c.modPcore k f).ports = c.ports := rfl
@[simp] theorem Chip.modPcore_slset (c : Chip) (k : Nat) (f : PCore → PCore) : (c.modPcore k f).slset = c.slset := rfl
@[simp] theorem Chip.modPcore_bridge (c : Chip) (k : Nat) (f : PCore → PCore) : (c.modPcore k f).bridge = c.bridge := rfl
@[simp] theorem Chip.modPcore_bad (c : Chip) (k : Nat) (f : PCore → PCore) : (c.modPcore k f).bad = c.bad := rfl
@[simp] theorem Chip.modPcore_tlb (c : Chip) (k : Nat) (f : PCore → PCore) : (c.modPcore k f).tlb = c.tlb := rfl
@[simp] theorem Chip.modPcore_wrote (c : Chip) (k : Nat) (f : PCore → PCore) : (c.modPcore k f).wrote = c.wrote := rfl
@[simp] theorem Chip.modPcore_power (c : Chip) (k : Nat) (f : PCore → PCore) : (c.modPcore k f).power = c.power := rfl
@[simp] theorem Chip.modPcore_tan (c : Chip) (k : Nat) (f : PCore → PCore) : (c.modPcore k f).tan = c.tan := rfl
@[simp] theorem Chip.modPcore_dumpValid (c : Chip) (k : Nat) (f : PCore → PCore) : (c.modPcore k f).dumpValid = c.dumpValid := rfl
@[simp] theorem Chip.modPcore_dumpBase (c : Chip) (k : Nat) (f : PCore → PCore) : (c.modPcore k f).dumpBase = c.dumpBase := rfl
@[simp] theorem Chip.modPcore_stopped (c : Chip) (k : Nat) (f : PCore → PCore) : (c.modPcore k f).stopped = c.stopped := rfl
@[simp] theorem Chip.modPcore_tags (c : Chip) (k : Nat) (f : PCore → PCore) : (c.modPcore k f).tags = c.tags := rfl
@[simp] theorem Chip.modPcore_net (c : Chip) (k : Nat) (f : PCore → PCore) : (c.modPcore k f).net = c.net := rfl
@[simp] theorem Chip.modPcore_inputs (c : Chip) (k : Nat) (f : PCore → PCore) : (c.modPcore k f).inputs = c.inputs := rfl
@[simp] theorem Chip.modPcore_outbox (c : Chip) (k : Nat) (f : PCore → PCore) : (c.modPcore k f).outbox = c.outbox := rfl
@[simp] theorem Chip.modPcore_shipped (c : Chip) (k : Nat) (f : PCore → PCore) : (c.modPcore k f).shipped = c.shipped := rfl
@[simp] theorem Chip.modPcore_replays (c : Chip) (k : Nat) (f : PCore → PCore) : (c.modPcore k f).replays = c.replays := rfl
@[simp] theorem Chip.modPcore_did (c : Chip) (k : Nat) (f : PCore → PCore) : (c.modPcore k f).did = c.did := rfl
@[simp] theorem Chip.modPcore_didAt (c : Chip) (k : Nat) (f : PCore → PCore) : (c.modPcore k f).didAt = c.didAt := rfl
@[simp] theorem Chip.modPcore_serial (c : Chip) (k : Nat) (f : PCore → PCore) : (c.modPcore k f).serial = c.serial := rfl
@[simp] theorem Chip.modPcore_picks (c : Chip) (k : Nat) (f : PCore → PCore) : (c.modPcore k f).picks = c.picks := rfl
@[simp] theorem Chip.modPcore_frees (c : Chip) (k : Nat) (f : PCore → PCore) : (c.modPcore k f).frees = c.frees := rfl
@[simp] theorem Chip.modPcore_nextRefill (c : Chip) (k : Nat) (f : PCore → PCore) : (c.modPcore k f).nextRefill = c.nextRefill := rfl
@[simp] theorem Chip.modPcore_nextSample (c : Chip) (k : Nat) (f : PCore → PCore) : (c.modPcore k f).nextSample = c.nextSample := rfl
@[simp] theorem Chip.modPcore_nextInterval (c : Chip) (k : Nat) (f : PCore → PCore) : (c.modPcore k f).nextInterval = c.nextInterval := rfl
@[simp] theorem Chip.modPcore_nextRamp (c : Chip) (k : Nat) (f : PCore → PCore) : (c.modPcore k f).nextRamp = c.nextRamp := rfl

/-! ### modPort -/
@[simp] theorem Chip.modPort_wr (c : Chip) (k : Nat) (f : Port → Port) : (c.modPort k f).wr = c.wr := rfl
@[simp] theorem Chip.modPort_cur (c : Chip) (k : Nat) (f : Port → Port) : (c.modPort k f).cur = c.cur := rfl
@[simp] theorem Chip.modPort_turn (c : Chip) (k : Nat) (f : Port → Port) : (c.modPort k f).turn = c.turn := rfl
@[simp] theorem Chip.modPort_group (c : Chip) (k : Nat) (f : Port → Port) : (c.modPort k f).group = c.group := rfl
@[simp] theorem Chip.modPort_ctxs (c : Chip) (k : Nat) (f : Port → Port) : (c.modPort k f).ctxs = c.ctxs := rfl
@[simp] theorem Chip.modPort_cores (c : Chip) (k : Nat) (f : Port → Port) : (c.modPort k f).cores = c.cores := rfl
@[simp] theorem Chip.modPort_homes (c : Chip) (k : Nat) (f : Port → Port) : (c.modPort k f).homes = c.homes := rfl
@[simp] theorem Chip.modPort_dies (c : Chip) (k : Nat) (f : Port → Port) : (c.modPort k f).dies = c.dies := rfl
@[simp] theorem Chip.modPort_vis (c : Chip) (k : Nat) (f : Port → Port) : (c.modPort k f).vis = c.vis := rfl
@[simp] theorem Chip.modPort_queues (c : Chip) (k : Nat) (f : Port → Port) : (c.modPort k f).queues = c.queues := rfl
@[simp] theorem Chip.modPort_mons (c : Chip) (k : Nat) (f : Port → Port) : (c.modPort k f).mons = c.mons := rfl
@[simp] theorem Chip.modPort_rows (c : Chip) (k : Nat) (f : Port → Port) : (c.modPort k f).rows = c.rows := rfl
@[simp] theorem Chip.modPort_pcores (c : Chip) (k : Nat) (f : Port → Port) : (c.modPort k f).pcores = c.pcores := rfl
@[simp] theorem Chip.modPort_slset (c : Chip) (k : Nat) (f : Port → Port) : (c.modPort k f).slset = c.slset := rfl
@[simp] theorem Chip.modPort_bridge (c : Chip) (k : Nat) (f : Port → Port) : (c.modPort k f).bridge = c.bridge := rfl
@[simp] theorem Chip.modPort_bad (c : Chip) (k : Nat) (f : Port → Port) : (c.modPort k f).bad = c.bad := rfl
@[simp] theorem Chip.modPort_tlb (c : Chip) (k : Nat) (f : Port → Port) : (c.modPort k f).tlb = c.tlb := rfl
@[simp] theorem Chip.modPort_wrote (c : Chip) (k : Nat) (f : Port → Port) : (c.modPort k f).wrote = c.wrote := rfl
@[simp] theorem Chip.modPort_power (c : Chip) (k : Nat) (f : Port → Port) : (c.modPort k f).power = c.power := rfl
@[simp] theorem Chip.modPort_tan (c : Chip) (k : Nat) (f : Port → Port) : (c.modPort k f).tan = c.tan := rfl
@[simp] theorem Chip.modPort_dumpValid (c : Chip) (k : Nat) (f : Port → Port) : (c.modPort k f).dumpValid = c.dumpValid := rfl
@[simp] theorem Chip.modPort_dumpBase (c : Chip) (k : Nat) (f : Port → Port) : (c.modPort k f).dumpBase = c.dumpBase := rfl
@[simp] theorem Chip.modPort_stopped (c : Chip) (k : Nat) (f : Port → Port) : (c.modPort k f).stopped = c.stopped := rfl
@[simp] theorem Chip.modPort_tags (c : Chip) (k : Nat) (f : Port → Port) : (c.modPort k f).tags = c.tags := rfl
@[simp] theorem Chip.modPort_net (c : Chip) (k : Nat) (f : Port → Port) : (c.modPort k f).net = c.net := rfl
@[simp] theorem Chip.modPort_inputs (c : Chip) (k : Nat) (f : Port → Port) : (c.modPort k f).inputs = c.inputs := rfl
@[simp] theorem Chip.modPort_outbox (c : Chip) (k : Nat) (f : Port → Port) : (c.modPort k f).outbox = c.outbox := rfl
@[simp] theorem Chip.modPort_shipped (c : Chip) (k : Nat) (f : Port → Port) : (c.modPort k f).shipped = c.shipped := rfl
@[simp] theorem Chip.modPort_replays (c : Chip) (k : Nat) (f : Port → Port) : (c.modPort k f).replays = c.replays := rfl
@[simp] theorem Chip.modPort_did (c : Chip) (k : Nat) (f : Port → Port) : (c.modPort k f).did = c.did := rfl
@[simp] theorem Chip.modPort_didAt (c : Chip) (k : Nat) (f : Port → Port) : (c.modPort k f).didAt = c.didAt := rfl
@[simp] theorem Chip.modPort_serial (c : Chip) (k : Nat) (f : Port → Port) : (c.modPort k f).serial = c.serial := rfl
@[simp] theorem Chip.modPort_picks (c : Chip) (k : Nat) (f : Port → Port) : (c.modPort k f).picks = c.picks := rfl
@[simp] theorem Chip.modPort_frees (c : Chip) (k : Nat) (f : Port → Port) : (c.modPort k f).frees = c.frees := rfl
@[simp] theorem Chip.modPort_nextRefill (c : Chip) (k : Nat) (f : Port → Port) : (c.modPort k f).nextRefill = c.nextRefill := rfl
@[simp] theorem Chip.modPort_nextSample (c : Chip) (k : Nat) (f : Port → Port) : (c.modPort k f).nextSample = c.nextSample := rfl
@[simp] theorem Chip.modPort_nextInterval (c : Chip) (k : Nat) (f : Port → Port) : (c.modPort k f).nextInterval = c.nextInterval := rfl
@[simp] theorem Chip.modPort_nextRamp (c : Chip) (k : Nat) (f : Port → Port) : (c.modPort k f).nextRamp = c.nextRamp := rfl

/-! ### next -/
@[simp] theorem Chip.next_wr (c : Chip) : (c.next).wr = c.wr := rfl
@[simp] theorem Chip.next_cur (c : Chip) : (c.next).cur = c.cur := rfl
@[simp] theorem Chip.next_turn (c : Chip) : (c.next).turn = c.turn := rfl
@[simp] theorem Chip.next_group (c : Chip) : (c.next).group = c.group := rfl
@[simp] theorem Chip.next_ctxs (c : Chip) : (c.next).ctxs = c.ctxs := rfl
@[simp] theorem Chip.next_cores (c : Chip) : (c.next).cores = c.cores := rfl
@[simp] theorem Chip.next_homes (c : Chip) : (c.next).homes = c.homes := rfl
@[simp] theorem Chip.next_dies (c : Chip) : (c.next).dies = c.dies := rfl
@[simp] theorem Chip.next_vis (c : Chip) : (c.next).vis = c.vis := rfl
@[simp] theorem Chip.next_queues (c : Chip) : (c.next).queues = c.queues := rfl
@[simp] theorem Chip.next_mons (c : Chip) : (c.next).mons = c.mons := rfl
@[simp] theorem Chip.next_rows (c : Chip) : (c.next).rows = c.rows := rfl
@[simp] theorem Chip.next_pcores (c : Chip) : (c.next).pcores = c.pcores := rfl
@[simp] theorem Chip.next_ports (c : Chip) : (c.next).ports = c.ports := rfl
@[simp] theorem Chip.next_slset (c : Chip) : (c.next).slset = c.slset := rfl
@[simp] theorem Chip.next_bridge (c : Chip) : (c.next).bridge = c.bridge := rfl
@[simp] theorem Chip.next_bad (c : Chip) : (c.next).bad = c.bad := rfl
@[simp] theorem Chip.next_tlb (c : Chip) : (c.next).tlb = c.tlb := rfl
@[simp] theorem Chip.next_wrote (c : Chip) : (c.next).wrote = c.wrote := rfl
@[simp] theorem Chip.next_power (c : Chip) : (c.next).power = c.power := rfl
@[simp] theorem Chip.next_tan (c : Chip) : (c.next).tan = c.tan := rfl
@[simp] theorem Chip.next_dumpValid (c : Chip) : (c.next).dumpValid = c.dumpValid := rfl
@[simp] theorem Chip.next_dumpBase (c : Chip) : (c.next).dumpBase = c.dumpBase := rfl
@[simp] theorem Chip.next_stopped (c : Chip) : (c.next).stopped = c.stopped := rfl
@[simp] theorem Chip.next_tags (c : Chip) : (c.next).tags = c.tags := rfl
@[simp] theorem Chip.next_net (c : Chip) : (c.next).net = c.net := rfl
@[simp] theorem Chip.next_inputs (c : Chip) : (c.next).inputs = c.inputs := rfl
@[simp] theorem Chip.next_outbox (c : Chip) : (c.next).outbox = c.outbox := rfl
@[simp] theorem Chip.next_shipped (c : Chip) : (c.next).shipped = c.shipped := rfl
@[simp] theorem Chip.next_replays (c : Chip) : (c.next).replays = c.replays := rfl
@[simp] theorem Chip.next_did (c : Chip) : (c.next).did = c.did := rfl
@[simp] theorem Chip.next_didAt (c : Chip) : (c.next).didAt = c.didAt := rfl
@[simp] theorem Chip.next_picks (c : Chip) : (c.next).picks = c.picks := rfl
@[simp] theorem Chip.next_frees (c : Chip) : (c.next).frees = c.frees := rfl
@[simp] theorem Chip.next_nextRefill (c : Chip) : (c.next).nextRefill = c.nextRefill := rfl
@[simp] theorem Chip.next_nextSample (c : Chip) : (c.next).nextSample = c.nextSample := rfl
@[simp] theorem Chip.next_nextInterval (c : Chip) : (c.next).nextInterval = c.nextInterval := rfl
@[simp] theorem Chip.next_nextRamp (c : Chip) : (c.next).nextRamp = c.nextRamp := rfl

/-! ### send -/
@[simp] theorem Chip.send_wr (c : Chip) (a b : Nat) (k : Cls) (ev : Ev) (t : Nat) : (c.send a b k ev t).wr = c.wr := rfl
@[simp] theorem Chip.send_cur (c : Chip) (a b : Nat) (k : Cls) (ev : Ev) (t : Nat) : (c.send a b k ev t).cur = c.cur := rfl
@[simp] theorem Chip.send_turn (c : Chip) (a b : Nat) (k : Cls) (ev : Ev) (t : Nat) : (c.send a b k ev t).turn = c.turn := rfl
@[simp] theorem Chip.send_group (c : Chip) (a b : Nat) (k : Cls) (ev : Ev) (t : Nat) : (c.send a b k ev t).group = c.group := rfl
@[simp] theorem Chip.send_ctxs (c : Chip) (a b : Nat) (k : Cls) (ev : Ev) (t : Nat) : (c.send a b k ev t).ctxs = c.ctxs := rfl
@[simp] theorem Chip.send_cores (c : Chip) (a b : Nat) (k : Cls) (ev : Ev) (t : Nat) : (c.send a b k ev t).cores = c.cores := rfl
@[simp] theorem Chip.send_homes (c : Chip) (a b : Nat) (k : Cls) (ev : Ev) (t : Nat) : (c.send a b k ev t).homes = c.homes := rfl
@[simp] theorem Chip.send_dies (c : Chip) (a b : Nat) (k : Cls) (ev : Ev) (t : Nat) : (c.send a b k ev t).dies = c.dies := rfl
@[simp] theorem Chip.send_vis (c : Chip) (a b : Nat) (k : Cls) (ev : Ev) (t : Nat) : (c.send a b k ev t).vis = c.vis := rfl
@[simp] theorem Chip.send_queues (c : Chip) (a b : Nat) (k : Cls) (ev : Ev) (t : Nat) : (c.send a b k ev t).queues = c.queues := rfl
@[simp] theorem Chip.send_mons (c : Chip) (a b : Nat) (k : Cls) (ev : Ev) (t : Nat) : (c.send a b k ev t).mons = c.mons := rfl
@[simp] theorem Chip.send_rows (c : Chip) (a b : Nat) (k : Cls) (ev : Ev) (t : Nat) : (c.send a b k ev t).rows = c.rows := rfl
@[simp] theorem Chip.send_pcores (c : Chip) (a b : Nat) (k : Cls) (ev : Ev) (t : Nat) : (c.send a b k ev t).pcores = c.pcores := rfl
@[simp] theorem Chip.send_ports (c : Chip) (a b : Nat) (k : Cls) (ev : Ev) (t : Nat) : (c.send a b k ev t).ports = c.ports := rfl
@[simp] theorem Chip.send_slset (c : Chip) (a b : Nat) (k : Cls) (ev : Ev) (t : Nat) : (c.send a b k ev t).slset = c.slset := rfl
@[simp] theorem Chip.send_bridge (c : Chip) (a b : Nat) (k : Cls) (ev : Ev) (t : Nat) : (c.send a b k ev t).bridge = c.bridge := rfl
@[simp] theorem Chip.send_bad (c : Chip) (a b : Nat) (k : Cls) (ev : Ev) (t : Nat) : (c.send a b k ev t).bad = c.bad := rfl
@[simp] theorem Chip.send_tlb (c : Chip) (a b : Nat) (k : Cls) (ev : Ev) (t : Nat) : (c.send a b k ev t).tlb = c.tlb := rfl
@[simp] theorem Chip.send_wrote (c : Chip) (a b : Nat) (k : Cls) (ev : Ev) (t : Nat) : (c.send a b k ev t).wrote = c.wrote := rfl
@[simp] theorem Chip.send_power (c : Chip) (a b : Nat) (k : Cls) (ev : Ev) (t : Nat) : (c.send a b k ev t).power = c.power := rfl
@[simp] theorem Chip.send_tan (c : Chip) (a b : Nat) (k : Cls) (ev : Ev) (t : Nat) : (c.send a b k ev t).tan = c.tan := rfl
@[simp] theorem Chip.send_dumpValid (c : Chip) (a b : Nat) (k : Cls) (ev : Ev) (t : Nat) : (c.send a b k ev t).dumpValid = c.dumpValid := rfl
@[simp] theorem Chip.send_dumpBase (c : Chip) (a b : Nat) (k : Cls) (ev : Ev) (t : Nat) : (c.send a b k ev t).dumpBase = c.dumpBase := rfl
@[simp] theorem Chip.send_stopped (c : Chip) (a b : Nat) (k : Cls) (ev : Ev) (t : Nat) : (c.send a b k ev t).stopped = c.stopped := rfl
@[simp] theorem Chip.send_tags (c : Chip) (a b : Nat) (k : Cls) (ev : Ev) (t : Nat) : (c.send a b k ev t).tags = c.tags := rfl
@[simp] theorem Chip.send_inputs (c : Chip) (a b : Nat) (k : Cls) (ev : Ev) (t : Nat) : (c.send a b k ev t).inputs = c.inputs := rfl
@[simp] theorem Chip.send_outbox (c : Chip) (a b : Nat) (k : Cls) (ev : Ev) (t : Nat) : (c.send a b k ev t).outbox = c.outbox := rfl
@[simp] theorem Chip.send_shipped (c : Chip) (a b : Nat) (k : Cls) (ev : Ev) (t : Nat) : (c.send a b k ev t).shipped = c.shipped := rfl
@[simp] theorem Chip.send_replays (c : Chip) (a b : Nat) (k : Cls) (ev : Ev) (t : Nat) : (c.send a b k ev t).replays = c.replays := rfl
@[simp] theorem Chip.send_did (c : Chip) (a b : Nat) (k : Cls) (ev : Ev) (t : Nat) : (c.send a b k ev t).did = c.did := rfl
@[simp] theorem Chip.send_didAt (c : Chip) (a b : Nat) (k : Cls) (ev : Ev) (t : Nat) : (c.send a b k ev t).didAt = c.didAt := rfl
@[simp] theorem Chip.send_serial (c : Chip) (a b : Nat) (k : Cls) (ev : Ev) (t : Nat) : (c.send a b k ev t).serial = c.serial := rfl
@[simp] theorem Chip.send_picks (c : Chip) (a b : Nat) (k : Cls) (ev : Ev) (t : Nat) : (c.send a b k ev t).picks = c.picks := rfl
@[simp] theorem Chip.send_frees (c : Chip) (a b : Nat) (k : Cls) (ev : Ev) (t : Nat) : (c.send a b k ev t).frees = c.frees := rfl
@[simp] theorem Chip.send_nextRefill (c : Chip) (a b : Nat) (k : Cls) (ev : Ev) (t : Nat) : (c.send a b k ev t).nextRefill = c.nextRefill := rfl
@[simp] theorem Chip.send_nextSample (c : Chip) (a b : Nat) (k : Cls) (ev : Ev) (t : Nat) : (c.send a b k ev t).nextSample = c.nextSample := rfl
@[simp] theorem Chip.send_nextInterval (c : Chip) (a b : Nat) (k : Cls) (ev : Ev) (t : Nat) : (c.send a b k ev t).nextInterval = c.nextInterval := rfl
@[simp] theorem Chip.send_nextRamp (c : Chip) (a b : Nat) (k : Cls) (ev : Ev) (t : Nat) : (c.send a b k ev t).nextRamp = c.nextRamp := rfl

/-! ### timer -/
@[simp] theorem Chip.timer_wr (c : Chip) (t : Nat) (ev : Ev) : (c.timer t ev).wr = c.wr := rfl
@[simp] theorem Chip.timer_cur (c : Chip) (t : Nat) (ev : Ev) : (c.timer t ev).cur = c.cur := rfl
@[simp] theorem Chip.timer_turn (c : Chip) (t : Nat) (ev : Ev) : (c.timer t ev).turn = c.turn := rfl
@[simp] theorem Chip.timer_group (c : Chip) (t : Nat) (ev : Ev) : (c.timer t ev).group = c.group := rfl
@[simp] theorem Chip.timer_ctxs (c : Chip) (t : Nat) (ev : Ev) : (c.timer t ev).ctxs = c.ctxs := rfl
@[simp] theorem Chip.timer_cores (c : Chip) (t : Nat) (ev : Ev) : (c.timer t ev).cores = c.cores := rfl
@[simp] theorem Chip.timer_homes (c : Chip) (t : Nat) (ev : Ev) : (c.timer t ev).homes = c.homes := rfl
@[simp] theorem Chip.timer_dies (c : Chip) (t : Nat) (ev : Ev) : (c.timer t ev).dies = c.dies := rfl
@[simp] theorem Chip.timer_vis (c : Chip) (t : Nat) (ev : Ev) : (c.timer t ev).vis = c.vis := rfl
@[simp] theorem Chip.timer_queues (c : Chip) (t : Nat) (ev : Ev) : (c.timer t ev).queues = c.queues := rfl
@[simp] theorem Chip.timer_mons (c : Chip) (t : Nat) (ev : Ev) : (c.timer t ev).mons = c.mons := rfl
@[simp] theorem Chip.timer_rows (c : Chip) (t : Nat) (ev : Ev) : (c.timer t ev).rows = c.rows := rfl
@[simp] theorem Chip.timer_pcores (c : Chip) (t : Nat) (ev : Ev) : (c.timer t ev).pcores = c.pcores := rfl
@[simp] theorem Chip.timer_ports (c : Chip) (t : Nat) (ev : Ev) : (c.timer t ev).ports = c.ports := rfl
@[simp] theorem Chip.timer_slset (c : Chip) (t : Nat) (ev : Ev) : (c.timer t ev).slset = c.slset := rfl
@[simp] theorem Chip.timer_bridge (c : Chip) (t : Nat) (ev : Ev) : (c.timer t ev).bridge = c.bridge := rfl
@[simp] theorem Chip.timer_bad (c : Chip) (t : Nat) (ev : Ev) : (c.timer t ev).bad = c.bad := rfl
@[simp] theorem Chip.timer_tlb (c : Chip) (t : Nat) (ev : Ev) : (c.timer t ev).tlb = c.tlb := rfl
@[simp] theorem Chip.timer_wrote (c : Chip) (t : Nat) (ev : Ev) : (c.timer t ev).wrote = c.wrote := rfl
@[simp] theorem Chip.timer_power (c : Chip) (t : Nat) (ev : Ev) : (c.timer t ev).power = c.power := rfl
@[simp] theorem Chip.timer_tan (c : Chip) (t : Nat) (ev : Ev) : (c.timer t ev).tan = c.tan := rfl
@[simp] theorem Chip.timer_dumpValid (c : Chip) (t : Nat) (ev : Ev) : (c.timer t ev).dumpValid = c.dumpValid := rfl
@[simp] theorem Chip.timer_dumpBase (c : Chip) (t : Nat) (ev : Ev) : (c.timer t ev).dumpBase = c.dumpBase := rfl
@[simp] theorem Chip.timer_stopped (c : Chip) (t : Nat) (ev : Ev) : (c.timer t ev).stopped = c.stopped := rfl
@[simp] theorem Chip.timer_tags (c : Chip) (t : Nat) (ev : Ev) : (c.timer t ev).tags = c.tags := rfl
@[simp] theorem Chip.timer_inputs (c : Chip) (t : Nat) (ev : Ev) : (c.timer t ev).inputs = c.inputs := rfl
@[simp] theorem Chip.timer_outbox (c : Chip) (t : Nat) (ev : Ev) : (c.timer t ev).outbox = c.outbox := rfl
@[simp] theorem Chip.timer_shipped (c : Chip) (t : Nat) (ev : Ev) : (c.timer t ev).shipped = c.shipped := rfl
@[simp] theorem Chip.timer_replays (c : Chip) (t : Nat) (ev : Ev) : (c.timer t ev).replays = c.replays := rfl
@[simp] theorem Chip.timer_did (c : Chip) (t : Nat) (ev : Ev) : (c.timer t ev).did = c.did := rfl
@[simp] theorem Chip.timer_didAt (c : Chip) (t : Nat) (ev : Ev) : (c.timer t ev).didAt = c.didAt := rfl
@[simp] theorem Chip.timer_serial (c : Chip) (t : Nat) (ev : Ev) : (c.timer t ev).serial = c.serial := rfl
@[simp] theorem Chip.timer_picks (c : Chip) (t : Nat) (ev : Ev) : (c.timer t ev).picks = c.picks := rfl
@[simp] theorem Chip.timer_frees (c : Chip) (t : Nat) (ev : Ev) : (c.timer t ev).frees = c.frees := rfl
@[simp] theorem Chip.timer_nextRefill (c : Chip) (t : Nat) (ev : Ev) : (c.timer t ev).nextRefill = c.nextRefill := rfl
@[simp] theorem Chip.timer_nextSample (c : Chip) (t : Nat) (ev : Ev) : (c.timer t ev).nextSample = c.nextSample := rfl
@[simp] theorem Chip.timer_nextInterval (c : Chip) (t : Nat) (ev : Ev) : (c.timer t ev).nextInterval = c.nextInterval := rfl
@[simp] theorem Chip.timer_nextRamp (c : Chip) (t : Nat) (ev : Ev) : (c.timer t ev).nextRamp = c.nextRamp := rfl

end Sys2Proof.Machine
end

