-- ==== Sys2Proof/Laws/Issue.lean ====
section
/-! SUPPORT. What the issue of an instruction does, once for each way its effect can end. -/
namespace Sys2Proof.Machine
open Sys2Proof

/-- Past the checks of R111, where nothing holds the instruction, only its effect is left. -/
theorem issue_go_open {s : State} {pfx : Bool} {u : Use} {body : Env → Chip → Nat → Ctx → Fate} (h : s.canRun pfx u) :
    issue.go s.env u body s.at_ s.chip.cur s.cx = s.settles (body s.env s.at_ s.chip.cur s.cx) := by
  obtain ⟨-, -, hb, ha, hc⟩ := h
  have ha' : (u.mem && s.cx.acquiring) = false := by cases hm : u.mem <;> simp_all
  have hc' : (u.ctr != .none && decide (63 ≤ s.cx.cnt u.ctr)) = false := by
    rcases hc with hc | hc
    · simp [hc]
    · simp [Nat.not_le.mpr hc]
  unfold issue.go
  rw [hb, ha', hc']
  cases body s.env s.at_ s.chip.cur s.cx <;> rfl
/-- Issue where nothing holds the instruction: only its effect is left. -/
theorem issue_open {s : State} {i : Instr} {pfx : Bool} {u : Use} {body : Env → Chip → Nat → Ctx → Fate}
    (h : s.canRun pfx u) (hp : pfx = true → i.takesPrefix = true) (hv : i.privileged = true → s.cx.priv = true) :
    issue s.env s.chip i u body = s.settles (body s.env s.at_ s.chip.cur s.cx) := by
  have hv' : (i.privileged && !s.cx.priv) = false := by cases hq : i.privileged <;> simp_all
  have hgo := issue_go_open (body := body) h
  have e : (s.chip.ctx s.chip.cur).begin_ = s.cx := rfl
  have e' : s.chip.setCtx s.chip.cur s.cx = s.at_ := rfl
  unfold issue
  simp only [e, e']
  rcases h.2.1 with hf | ⟨rfl, w, hf, hl⟩
  · simp only [hf, hv', Bool.false_eq_true, if_false, hgo]
  · simp only [hf, hl, hp rfl, hv', Bool.not_true, Bool.false_eq_true, if_false, hgo]

/-- The next PC depends only on the loop registers and on whether a trap or an upcall is being handled (R145, R147). -/
theorem nextPc_snd_congr {x y : Ctx} (p : W64) (h1 : y.lps = x.lps) (h2 : y.lpe = x.lpe) (h3 : y.lpc = x.lpc) (h4 : y.inTrap = x.inTrap)
    (h5 : y.inUpcall = x.inUpcall) : (y.nextPc p).2 = (x.nextPc p).2 := by
  have hl : y.noLoops = x.noLoops := by simp [Ctx.noLoops, h4, h5]
  have key : ∀ (n : Nat) (x y : Ctx), y.lps = x.lps → y.lpe = x.lpe → y.lpc = x.lpc → (y.endCheck p n).2 = (x.endCheck p n).2 := by
    intro n
    induction n with
    | zero => intros; rfl
    | succ n ih =>
      intro x y h1 h2 h3
      simp only [Ctx.endCheck, h1, h2, h3]
      split
      · split
        · rfl
        · exact ih _ _ rfl rfl rfl
      · exact ih _ _ h1 h2 h3
  unfold Ctx.nextPc
  rw [hl]
  split
  · rfl
  · exact key 4 x y h1 h2 h3
@[simp] theorem Ctx.nextPc_setX (x : Ctx) (n : Nat) (v p : W64) : ((x.setX n v).nextPc p).2 = (x.nextPc p).2 := by
  unfold Ctx.setX; split
  · rfl
  · exact nextPc_snd_congr p rfl rfl rfl rfl rfl
@[simp] theorem Ctx.nextPc_setK (x : Ctx) (n : Nat) (v p : W64) : ((x.setK n v).nextPc p).2 = (x.nextPc p).2 := by
  unfold Ctx.setK; split
  · rfl
  · exact nextPc_snd_congr p rfl rfl rfl rfl rfl
@[simp] theorem Ctx.nextPc_setV (x : Ctx) (n : Nat) (v : VReg) (p : W64) : ((x.setV n v).nextPc p).2 = (x.nextPc p).2 :=
  nextPc_snd_congr p rfl rfl rfl rfl rfl
@[simp] theorem Ctx.nextPc_flag (x : Ctx) (f : BitVec 6) (p : W64) : ((x.flag f).nextPc p).2 = (x.nextPc p).2 :=
  nextPc_snd_congr p rfl rfl rfl rfl rfl

/-- An instruction whose effect changes only the record of its context retires so. -/
theorem settles_retire {s : State} {f : Ctx → Ctx} (h : ((f s.cx).nextPc s.cx.pc).2.toNat % 4 = 0) :
    commit s (s.settles (.retire (s.at_.modCtx s.chip.cur f))) = s.retires f := by
  simp [State.settles, State.retires, State.retiresIn, State.at_, h]
/-- An instruction that computes one scalar register from its context (R131, R132). -/
theorem scalar_retires {s : State} {i : Instr} {used : List Nat} {d : Nat} {f : Ctx → W64} (h : s.canRun false { x := d :: used })
    (hn : s.nextOk) (hv : i.privileged = false) : scalar i used d f s = .next (s.retires fun x => x.setX d (f s.cx)) := by
  have := settles_retire (s := s) (f := fun x => x.setX d (f s.cx)) (by rw [Ctx.nextPc_setX]; exact hn)
  unfold scalar run
  rw [← this]
  exact congrArg (fun c => Host.Outcome.next (commit s c)) (issue_open h (by simp) (by simp [hv]))
/-- Only the record that issues matters to the state that an instruction leads to. -/
theorem retires_congr {s : State} {f g : Ctx → Ctx} (h : f s.cx = g s.cx) : s.retires f = s.retires g := by
  simp only [State.retires, Chip.modCtx, State.at_, Chip.ctx_setCtx_self, h]
/-- An instruction whose effect changes only the record of its context, by `g` where it issues so. -/
theorem record_retires {s : State} {i : Instr} {pfx : Bool} {u : Use} {body : Env → Chip → Nat → Ctx → Fate} {g : Ctx → Ctx}
    (hb : body s.env s.at_ s.chip.cur s.cx = .retire (s.at_.modCtx s.chip.cur g)) (h : s.canRun pfx u) (hn : s.nextOk)
    (hp : pfx = true → i.takesPrefix = true) (hv : i.privileged = false)
    (hg : ((g s.cx).nextPc s.cx.pc).2 = (s.cx.nextPc s.cx.pc).2) :
    run s (fun e c => issue e c i u body) = .next (s.retires g) := by
  unfold run
  rw [← settles_retire (s := s) (f := g) (by rw [hg]; exact hn), ← hb]
  exact congrArg (fun c => Host.Outcome.next (commit s c)) (issue_open h hp (by simp [hv]))
/-- A vector instruction (R241). -/
theorem vecOp_retires {s : State} {i : Instr} {pfx : Bool} {vs xs : List Nat} {f g : Ctx → Ctx} (h : s.canRun pfx { v := vs, x := xs })
    (hn : s.nextOk) (hp : pfx = true → i.takesPrefix = true) (hv : i.privileged = false) (hfg : f s.cx = g s.cx)
    (hg : ((g s.cx).nextPc s.cx.pc).2 = (s.cx.nextPc s.cx.pc).2) : vecOp i vs xs f s = .next (s.retires g) := by
  rw [← retires_congr hfg]
  exact record_retires rfl h hn hp hv (by rw [hfg]; exact hg)
/-- A scalar floating-point instruction (R234). -/
theorem fpScalar_retires {s : State} {i : Instr} {pfx : Bool} {used : List Nat} {d : Nat} {f : Ctx → W64 × BitVec 6}
    (h : s.canRun pfx { x := d :: used }) (hn : s.nextOk) (hp : pfx = true → i.takesPrefix = true) (hv : i.privileged = false) :
    fpScalar i used d f s = .next (s.retires fun x => (x.setX d (f s.cx).1).flag (f s.cx).2) :=
  record_retires rfl h hn hp hv (by simp)

end Sys2Proof.Machine
end

