-- ==== Sys2Proof/Laws/Lanes.lean ====
section
/-! SUPPORT. Lanes of vector registers: reading a lane of a register that was built from its lanes. -/
namespace Sys2Proof.Machine
open Sys2Proof

/-- Lane `j` of a register built from lanes. -/
theorem ofLanes_lane (w : Nat) (l : List Nat) (j : Nat) : ofLanes w l / 2 ^ (w * j) % 2 ^ w = l.getD j 0 % 2 ^ w := by
  induction l generalizing j with
  | nil => simp [ofLanes]
  | cons x r ih =>
    cases j with
    | zero => simp [ofLanes]
    | succ j =>
      have e : 2 ^ (w * (j + 1)) = 2 ^ w * 2 ^ (w * j) := by rw [← pow_add]; congr 1; ring
      rw [ofLanes, e, ← Nat.div_div_eq_div_mul, Nat.add_mul_div_left _ _ (by positivity),
        Nat.div_eq_of_lt (Nat.mod_lt _ (by positivity)), Nat.zero_add, ih]
      simp
/-- Lane `j` of a vector register built from lanes that lie in it. -/
theorem lane_vecOf (w : Nat) (l : List Nat) (j : Nat) (h : w * (j + 1) ≤ 512) : lane (vecOf w l) w j = l.getD j 0 % 2 ^ w := by
  have hw : w * j + w ≤ 512 := by rw [← Nat.mul_succ]; exact h
  rw [← ofLanes_lane, lane, vecOf, BitVec.toNat_ofNat]
  obtain ⟨k, hk⟩ := Nat.exists_eq_add_of_le hw
  rw [hk, show 2 ^ (w * j + w + k) = 2 ^ (w * j) * (2 ^ w * 2 ^ k) by rw [pow_add, pow_add, mul_assoc],
    Nat.mod_mul_right_div_self, Nat.mod_mul_right_mod]
/-- A lane is below its width. -/
theorem lane_lt (v : VReg) (w j : Nat) : lane v w j < 2 ^ w := Nat.mod_lt _ (by positivity)
/-- The lanes of a type fill the register. -/
theorem lanes_mul (t : Nat) : tyW t * lanes t = 512 := by
  unfold lanes tyW
  split <;> rfl
/-- A lane of a type lies in the register. -/
theorem lane_fits {t j : Nat} (h : j < lanes t) : tyW t * (j + 1) ≤ 512 := by
  rw [← lanes_mul t]; exact Nat.mul_le_mul_left _ h
/-- The lanes of a masked operation: the result where active, the old lane elsewhere (R242). -/
theorem lane_vecMap {t : Nat} {k : W64} {old : VReg} {f : Nat → Nat × BitVec 6} {j : Nat} (h : j < lanes t) :
    lane (vecMap t k old f).1 (tyW t) j = if k.getLsbD j then (f j).1 % 2 ^ tyW t else lane old (tyW t) j := by
  unfold vecMap
  rw [lane_vecOf _ _ _ (lane_fits h)]
  by_cases hk : k.getLsbD j <;> simp [List.getD, h, active, hk, Nat.mod_eq_of_lt (lane_lt _ _ _)]
/-- The flags of a masked operation: those of its active lanes (R227). -/
theorem flags_fold (l : List (Nat × BitVec 6)) (a : BitVec 6) (m : Nat) :
    (l.foldl (fun a p => a ||| p.2) a).getLsbD m = (a.getLsbD m || l.any fun p => p.2.getLsbD m) := by
  induction l generalizing a with
  | nil => simp
  | cons p r ih => simp [ih, Bool.or_assoc]
theorem flags_vecMap {t : Nat} {k : W64} {old : VReg} {f : Nat → Nat × BitVec 6} {m : Nat} :
    (vecMap t k old f).2.getLsbD m = true ↔ ∃ j < lanes t, k.getLsbD j = true ∧ (f j).2.getLsbD m = true := by
  unfold vecMap
  have z : BitVec.getLsbD (0 : BitVec 6) m = false := by simp
  rw [flags_fold, z, Bool.false_or, List.any_eq_true]
  simp only [List.mem_map, List.mem_range, active]
  constructor
  · rintro ⟨p, ⟨j, hj, rfl⟩, h⟩
    by_cases hk : k.getLsbD j = true
    · simp only [hk, if_true] at h; exact ⟨j, hj, hk, h⟩
    · simp [hk] at h
  · rintro ⟨j, hj, hk, h⟩
    exact ⟨_, ⟨j, hj, rfl⟩, by simpa [hk] using h⟩

end Sys2Proof.Machine
end

