-- ==== Sys2Proof/Laws/Memory.lean ====
section
/-! SUPPORT. Laws of memory: reading after writing, and every operation keeps the canonical form. -/
namespace Sys2Proof.Machine
open Sys2Proof

/-! ### Cells -/

/-- What the form of the cells says of the first one. -/
theorem cellsOk_cons (p : Host.Cell) (r : List Host.Cell) :
    cellsOk (p :: r) = true ↔ p.2 ≠ 0 ∧ (∀ q ∈ r, p.1 < q.1) ∧ cellsOk r = true := by
  induction r generalizing p with
  | nil => simp [cellsOk]
  | cons q r ih =>
    simp only [cellsOk, Bool.and_eq_true, bne_iff_ne, decide_eq_true_eq, List.forall_mem_cons]
    constructor
    · rintro ⟨⟨h1, h2⟩, h3⟩
      exact ⟨h1, ⟨h2, fun x hx => h2.trans (((ih q).1 h3).2.1 x hx)⟩, h3⟩
    · rintro ⟨h1, ⟨h2, -⟩, h3⟩
      exact ⟨⟨h1, h2⟩, h3⟩
/-- An address below every cell is not listed. -/
theorem cellGet_below {l : List Host.Cell} {a : Nat} (h : ∀ q ∈ l, a < q.1) : cellGet l a = 0 := by
  induction l with
  | nil => rfl
  | cons q r ih =>
    obtain ⟨hq, hr⟩ := List.forall_mem_cons.1 h
    simp [cellGet, Nat.ne_of_gt hq, ih hr]
/-- The cells after a write are the new one and old ones. -/
theorem mem_cellPut {l : List Host.Cell} {a : Nat} {b : Byte} {p : Host.Cell} (h : p ∈ cellPut l a b) : p.1 = a ∨ p ∈ l := by
  induction l with
  | nil =>
    unfold cellPut at h
    split at h
    · cases h
    · exact .inl (by rw [List.mem_singleton.1 h])
  | cons q r ih =>
    unfold cellPut at h
    split at h
    · split at h
      · exact .inr h
      · rcases List.mem_cons.1 h with rfl | h
        · exact .inl rfl
        · exact .inr h
    · split at h
      · split at h
        · exact .inr (List.mem_cons_of_mem _ h)
        · rcases List.mem_cons.1 h with rfl | h
          · exact .inl rfl
          · exact .inr (List.mem_cons_of_mem _ h)
      · rcases List.mem_cons.1 h with rfl | h
        · exact .inr List.mem_cons_self
        · exact (ih h).imp id (List.mem_cons_of_mem _)
/-- A write keeps the cells in their form. -/
theorem cellsOk_put {l : List Host.Cell} (h : cellsOk l = true) (a : Nat) (b : Byte) : cellsOk (cellPut l a b) = true := by
  induction l with
  | nil => unfold cellPut; split <;> simp_all [cellsOk]
  | cons q r ih =>
    obtain ⟨hq, hlt, hr⟩ := (cellsOk_cons q r).1 h
    unfold cellPut
    split
    · rename_i ha
      split
      · exact h
      · rename_i hb
        exact (cellsOk_cons _ _).2 ⟨hb, List.forall_mem_cons.2 ⟨ha, fun x hx => ha.trans (hlt x hx)⟩, h⟩
    · split
      · rename_i ha
        split
        · exact hr
        · rename_i hb
          exact (cellsOk_cons _ _).2 ⟨hb, fun x hx => by rw [ha]; exact hlt x hx, hr⟩
      · refine (cellsOk_cons _ _).2 ⟨hq, fun x hx => ?_, ih hr⟩
        rcases mem_cellPut hx with e | hx
        · show q.1 < x.1
          omega
        · exact hlt x hx
/-- Reading a cell after a write. -/
theorem cellGet_put {l : List Host.Cell} (h : cellsOk l = true) (a x : Nat) (b : Byte) :
    cellGet (cellPut l a b) x = if x = a then b else cellGet l x := by
  induction l with
  | nil =>
    by_cases hb : b = 0
    · simp [cellPut, cellGet, hb]
    · rw [cellPut, if_neg hb]
      by_cases hx : x = a
      · simp [cellGet, hx]
      · simp [cellGet, hx, Ne.symm hx]
  | cons q r ih =>
    obtain ⟨hq, hlt, hr⟩ := (cellsOk_cons q r).1 h
    unfold cellPut
    split
    · rename_i ha
      split
      · rename_i hb
        by_cases hx : x = a
        · rw [if_pos hx, hx, hb]
          exact cellGet_below (List.forall_mem_cons.2 ⟨ha, fun y hy => ha.trans (hlt y hy)⟩)
        · rw [if_neg hx]
      · by_cases hx : x = a
        · simp [cellGet, hx]
        · simp [cellGet, hx, Ne.symm hx]
    · split
      · rename_i ha
        split
        · rename_i hb
          by_cases hx : x = a
          · rw [if_pos hx, hx, hb, ha]
            exact cellGet_below hlt
          · have : ¬ q.1 = x := fun e => hx (by rw [← e, ← ha])
            simp [cellGet, hx, this]
        · by_cases hx : x = a
          · simp [cellGet, hx]
          · have h1 : ¬ q.1 = x := fun e => hx (by rw [← e, ← ha])
            have h2 : ¬ a = x := fun e => hx e.symm
            simp [cellGet, hx, h1, h2]
      · rename_i h1 h2
        by_cases hx : q.1 = x
        · have : ¬ x = a := fun e => h2 (by rw [← e, hx])
          simp [cellGet, hx, this]
        · simp [cellGet, hx, ih hr]
/-- Cutting a range keeps the cells in their form. -/
theorem cellsOk_cut {l : List Host.Cell} (h : cellsOk l = true) (lo hi : Nat) : cellsOk (cellCut lo hi l) = true := by
  induction l with
  | nil => rfl
  | cons q r ih =>
    obtain ⟨hq, hlt, hr⟩ := (cellsOk_cons q r).1 h
    unfold cellCut
    rw [List.filter_cons]
    split
    · exact (cellsOk_cons _ _).2 ⟨hq, fun x hx => hlt x (List.mem_of_mem_filter hx), ih hr⟩
    · exact ih hr
/-- Reading a cell after a range has been cut. -/
theorem cellGet_cut (l : List Host.Cell) (lo hi x : Nat) : cellGet (cellCut lo hi l) x = if lo ≤ x ∧ x < hi then 0 else cellGet l x := by
  induction l with
  | nil => simp [cellCut, cellGet]
  | cons q r ih =>
    unfold cellCut at ih ⊢
    rw [List.filter_cons]
    by_cases hx : q.1 = x
    · subst hx
      by_cases hc : lo ≤ q.1 ∧ q.1 < hi
      · have : ¬ (decide (q.1 < lo) || decide (hi ≤ q.1)) = true := by simp; omega
        rw [if_neg this, ih, if_pos hc, if_pos hc]
      · have : (decide (q.1 < lo) || decide (hi ≤ q.1)) = true := by simp; omega
        simp [this, cellGet, hc]
    · split
      · simp [cellGet, hx, ih]
      · simp [cellGet, hx, ih]

/-! ### Ranges with undefined contents -/

/-- The generation of the undefined byte at an address, where it is undefined. -/
def junkGen (l : List Junk) (x : Nat) : Option Nat := (l.find? fun j => j.lo ≤ x && x < j.hi).map (·.gen)
theorem junkGen_cons (j : Junk) (r : List Junk) (x : Nat) :
    junkGen (j :: r) x = if j.lo ≤ x ∧ x < j.hi then some j.gen else junkGen r x := by
  unfold junkGen
  rw [List.find?_cons]
  by_cases h : j.lo ≤ x ∧ x < j.hi
  · simp [h]
  · have : (decide (j.lo ≤ x) && decide (x < j.hi)) = false := by simp; omega
    simp [this, h]
/-- Reading a byte, by its generation. -/
theorem Mem.read_eq (m : Mem) (x : Nat) : m.read x = match junkGen m.junk x with
    | some g => Config.freeByte g x
    | none => cellGet m.cells x := by
  unfold Mem.read junkGen
  cases m.junk.find? fun j => j.lo ≤ x && x < j.hi <;> rfl
/-- What is undefined after a range has been cut out. -/
theorem junkGen_cut (l : List Junk) (lo hi x : Nat) : junkGen (cutJunk lo hi l) x = if lo ≤ x ∧ x < hi then none else junkGen l x := by
  induction l with
  | nil => simp [cutJunk, junkGen]
  | cons j r ih =>
    unfold cutJunk
    split
    · rename_i h
      rw [junkGen_cons, junkGen_cons, ih]
      split <;> split <;> first | rfl | omega
    · rename_i h
      split <;> split <;> simp only [List.cons_append, List.nil_append, junkGen_cons, ih] <;> (repeat' split) <;> first | rfl | omega
/-- Every range of the list lies at or above a bound. -/
def above (b : Nat) (l : List Junk) : Prop := ∀ j ∈ l, b ≤ j.lo
theorem junkOk_cons (j : Junk) (r : List Junk) : junkOk (j :: r) = true ↔ j.lo < j.hi ∧ above j.hi r ∧ junkOk r = true := by
  induction r generalizing j with
  | nil => simp [junkOk, above]
  | cons q r ih =>
    simp only [junkOk, Bool.and_eq_true, decide_eq_true_eq, above, List.forall_mem_cons]
    constructor
    · rintro ⟨⟨h1, h2⟩, h3⟩
      obtain ⟨h4, h5, -⟩ := (ih q).1 h3
      exact ⟨h1, ⟨h2, fun x hx => by have := h5 x hx; omega⟩, h3⟩
    · rintro ⟨h1, ⟨h2, -⟩, h3⟩
      exact ⟨⟨h1, h2⟩, h3⟩
/-- A range that is left after a cut lies in an old one and outside the cut. -/
theorem mem_cutJunk {lo hi : Nat} {l : List Junk} {p : Junk} (h : p ∈ cutJunk lo hi l) :
    (∃ j ∈ l, j.lo ≤ p.lo ∧ p.hi ≤ j.hi) ∧ (hi ≤ p.lo ∨ p.hi ≤ lo) := by
  induction l with
  | nil => cases h
  | cons j r ih =>
    unfold cutJunk at h
    split at h
    · rename_i hc
      rcases List.mem_cons.1 h with rfl | h
      · exact ⟨⟨_, List.mem_cons_self, Nat.le_refl _, Nat.le_refl _⟩, hc⟩
      · obtain ⟨⟨q, hq, e⟩, o⟩ := ih h
        exact ⟨⟨q, List.mem_cons_of_mem _ hq, e⟩, o⟩
    · rcases List.mem_append.1 h with h | h
      · rcases List.mem_append.1 h with h | h
        · split at h
          · rw [List.mem_singleton] at h
            subst h
            exact ⟨⟨j, List.mem_cons_self, Nat.le_refl _, by show lo ≤ j.hi; omega⟩, .inr (Nat.le_refl _)⟩
          · cases h
        · split at h
          · rw [List.mem_singleton] at h
            subst h
            exact ⟨⟨j, List.mem_cons_self, by show j.lo ≤ hi; omega, Nat.le_refl _⟩, .inl (Nat.le_refl _)⟩
          · cases h
      · obtain ⟨⟨q, hq, e⟩, o⟩ := ih h
        exact ⟨⟨q, List.mem_cons_of_mem _ hq, e⟩, o⟩
/-- A cut that is no empty range keeps the ranges in their form. -/
theorem junkOk_cut {l : List Junk} (h : junkOk l = true) {lo hi : Nat} (hlt : lo ≤ hi) : junkOk (cutJunk lo hi l) = true := by
  induction l with
  | nil => rfl
  | cons j r ih =>
    obtain ⟨hj, ha, hr⟩ := (junkOk_cons j r).1 h
    have up (b : Nat) (hb : b ≤ j.hi) : above b (cutJunk lo hi r) := by
      intro p hp
      obtain ⟨⟨q, hq, e, -⟩, -⟩ := mem_cutJunk hp
      have := ha q hq
      omega
    unfold cutJunk
    split
    · exact (junkOk_cons _ _).2 ⟨hj, up _ (Nat.le_refl _), ih hr⟩
    · have hi' : hi < j.hi → junkOk (⟨hi, j.hi, j.gen⟩ :: cutJunk lo hi r) = true :=
        fun h => (junkOk_cons _ _).2 ⟨h, up _ (Nat.le_refl _), ih hr⟩
      split <;> split
      · rename_i h1 h2
        refine (junkOk_cons _ _).2 ⟨h1, ?_, hi' h2⟩
        exact List.forall_mem_cons.2 ⟨hlt, up _ (by show lo ≤ j.hi; omega)⟩
      · rename_i h1 h2
        exact (junkOk_cons _ _).2 ⟨h1, up _ (by show lo ≤ j.hi; omega), ih hr⟩
      · rename_i h1 h2
        exact hi' h2
      · exact ih hr
theorem mem_addJunk {n p : Junk} {l : List Junk} : p ∈ addJunk n l ↔ p = n ∨ p ∈ l := by
  induction l with
  | nil => simp [addJunk]
  | cons j r ih =>
    unfold addJunk
    split
    · simp
    · simp only [List.mem_cons, ih]; tauto
/-- A range that overlaps none keeps the ranges in their form. -/
theorem junkOk_add {l : List Junk} (h : junkOk l = true) {n : Junk} (hn : n.lo < n.hi) (ho : ∀ j ∈ l, n.hi ≤ j.lo ∨ j.hi ≤ n.lo) :
    junkOk (addJunk n l) = true := by
  induction l with
  | nil => exact (junkOk_cons _ _).2 ⟨hn, by simp [above], rfl⟩
  | cons j r ih =>
    obtain ⟨hj, ha, hr⟩ := (junkOk_cons j r).1 h
    obtain ⟨oj, or_⟩ := List.forall_mem_cons.1 ho
    unfold addJunk
    split
    · refine (junkOk_cons _ _).2 ⟨hn, List.forall_mem_cons.2 ⟨by omega, fun q hq => ?_⟩, h⟩
      have := ha q hq
      omega
    · refine (junkOk_cons _ _).2 ⟨hj, fun q hq => ?_, ih hr or_⟩
      rcases mem_addJunk.1 hq with rfl | hq
      · omega
      · exact ha q hq
/-- What is undefined after a range has been added that overlaps none. -/
theorem junkGen_add {l : List Junk} {n : Junk} {x : Nat} (ho : ∀ j ∈ l, n.hi ≤ j.lo ∨ j.hi ≤ n.lo) :
    junkGen (addJunk n l) x = if n.lo ≤ x ∧ x < n.hi then some n.gen else junkGen l x := by
  induction l with
  | nil => rw [addJunk, junkGen_cons]
  | cons j r ih =>
    obtain ⟨oj, or_⟩ := List.forall_mem_cons.1 ho
    unfold addJunk
    split
    · rw [junkGen_cons]
    · rw [junkGen_cons, junkGen_cons, ih or_]
      split <;> split <;> first | rfl | omega

/-! ### Memory -/

theorem cellsClear_iff {l : List Host.Cell} {junk : List Junk} : cellsClear l junk = true ↔ ∀ p ∈ l, ∀ j ∈ junk, p.1 < j.lo ∨ j.hi ≤ p.1 := by
  simp [cellsClear, List.all_eq_true]
theorem Mem.wf_iff (m : Mem) : m.wf = true ↔ cellsOk m.cells = true ∧ junkOk m.junk = true ∧ cellsClear m.cells m.junk = true := by
  simp [Mem.wf, and_assoc]
/-- Cells outside a cut stay clear of what is undefined after it. -/
theorem cellsClear_cut {l l' : List Host.Cell} {junk : List Junk} {lo hi : Nat} (h : cellsClear l junk = true)
    (hl : ∀ p ∈ l', (lo ≤ p.1 ∧ p.1 < hi) ∨ p ∈ l) : cellsClear l' (cutJunk lo hi junk) = true := by
  rw [cellsClear_iff] at *
  intro p hp j hj
  obtain ⟨⟨q, hq, e⟩, o⟩ := mem_cutJunk hj
  rcases hl p hp with hb | hp
  · omega
  · have := h p hp q hq
    omega
/-- Writing a byte keeps the canonical form. -/
theorem Mem.wf_put {m : Mem} (h : m.wf = true) (a : Nat) (b : Byte) : (m.put a b).wf = true := by
  obtain ⟨h1, h2, h3⟩ := (Mem.wf_iff m).1 h
  refine (Mem.wf_iff _).2 ⟨cellsOk_put h1 a b, junkOk_cut h2 (Nat.le_succ a), cellsClear_cut h3 fun p hp => ?_⟩
  exact (mem_cellPut hp).imp (fun e => by omega) id
/-- Writing bytes keeps the canonical form. -/
theorem Mem.wf_puts {m : Mem} (h : m.wf = true) (a : Nat) (d : List Byte) : (m.puts a d).wf = true := by
  induction d generalizing m a with
  | nil => exact h
  | cons b r ih => exact ih (Mem.wf_put h a b) (a + 1)
/-- Every write of a step keeps the canonical form. -/
theorem Mem.wf_applyWr {m : Mem} (h : m.wf = true) (w : Wr) : (applyWr m w).wf = true := by
  obtain ⟨h1, h2, h3⟩ := (Mem.wf_iff m).1 h
  have cl (a n : Nat) : cellsClear (cellCut a (a + n) m.cells) (cutJunk a (a + n) m.junk) = true :=
    cellsClear_cut h3 fun p hp => .inr (List.mem_of_mem_filter hp)
  cases w with
  | bytes a d => exact Mem.wf_puts h a d
  | zero a n => exact (Mem.wf_iff _).2 ⟨cellsOk_cut h1 _ _, junkOk_cut h2 (Nat.le_add_right ..), cl a n⟩
  | junk a n g =>
    show (if n = 0 then m else _).wf = true
    split
    · exact h
    · rename_i hn
      have ho : ∀ j ∈ cutJunk a (a + n) m.junk, (⟨a, a + n, g⟩ : Junk).hi ≤ j.lo ∨ j.hi ≤ (⟨a, a + n, g⟩ : Junk).lo := fun j hj => (mem_cutJunk hj).2
      refine (Mem.wf_iff _).2 ⟨cellsOk_cut h1 _ _, junkOk_add (junkOk_cut h2 (Nat.le_add_right ..)) (by show a < a + n; omega) ho, ?_⟩
      rw [cellsClear_iff]
      intro p hp j hj
      rcases mem_addJunk.1 hj with rfl | hj
      · have := List.of_mem_filter hp
        simpa using this
      · exact (cellsClear_iff.1 (cl a n)) p hp j hj
/-- All writes of a step keep the canonical form. -/
theorem Mem.wf_applyWrs {m : Mem} (h : m.wf = true) (l : List Wr) : (applyWrs m l).wf = true := by
  induction l with
  | nil => exact h
  | cons w r ih => exact Mem.wf_applyWr ih w

/-- A byte after it or another one was written. -/
theorem Mem.read_put {m : Mem} (h : m.wf = true) (a x : Nat) (b : Byte) : (m.put a b).read x = if x = a then b else m.read x := by
  obtain ⟨h1, -, -⟩ := (Mem.wf_iff m).1 h
  rw [Mem.read_eq, Mem.read_eq]
  show (match junkGen (cutJunk a (a + 1) m.junk) x with | some g => _ | none => cellGet (cellPut m.cells a b) x) = _
  rw [junkGen_cut, cellGet_put h1]
  by_cases hx : x = a
  · simp [hx]
  · have : ¬ (a ≤ x ∧ x < a + 1) := by omega
    rw [if_neg this]
    simp [hx]
/-- A byte after bytes were written from `a` up. -/
theorem Mem.read_puts {m : Mem} (h : m.wf = true) (a x : Nat) (d : List Byte) :
    (m.puts a d).read x = if a ≤ x ∧ x < a + d.length then d.getD (x - a) 0 else m.read x := by
  induction d generalizing m a with
  | nil =>
    have : ¬ (a ≤ x ∧ x < a + ([] : List Byte).length) := by simp
    rw [if_neg this]; rfl
  | cons b r ih =>
    rw [Mem.puts, ih (Mem.wf_put h a b), Mem.read_put h]
    by_cases hx : x = a
    · subst hx
      simp
    · by_cases hc : a ≤ x ∧ x < a + (b :: r).length
      · have h1 : a + 1 ≤ x ∧ x < a + 1 + r.length := by simp at hc; omega
        have e : x - a = (x - (a + 1)) + 1 := by omega
        rw [if_pos h1, if_pos hc, e, List.getD_cons_succ]
      · have h1 : ¬ (a + 1 ≤ x ∧ x < a + 1 + r.length) := by simp at hc; omega
        rw [if_neg h1, if_neg hc, if_neg hx]
/-- What a write of a step gives one address. -/
theorem Mem.read_applyWr {m : Mem} (h : m.wf = true) (w : Wr) (x : Nat) : (applyWr m w).read x = (wrLook [w] x).getD (m.read x) := by
  cases w with
  | bytes a d =>
    rw [applyWr, Mem.read_puts h]
    unfold wrLook
    split <;> rfl
  | zero a n =>
    rw [applyWr, Mem.read_eq, junkGen_cut, cellGet_cut, Mem.read_eq]
    unfold wrLook
    by_cases hc : a ≤ x ∧ x < a + n <;> simp [hc, wrLook]
  | junk a n g =>
    show (if n = 0 then m else _).read x = (if a ≤ x ∧ x < a + n then some _ else none).getD _
    split
    · rename_i hn
      have : ¬ (a ≤ x ∧ x < a + n) := by omega
      rw [if_neg this]; rfl
    · have ho : ∀ j ∈ cutJunk a (a + n) m.junk, (⟨a, a + n, g⟩ : Junk).hi ≤ j.lo ∨ j.hi ≤ (⟨a, a + n, g⟩ : Junk).lo := fun j hj => (mem_cutJunk hj).2
      rw [Mem.read_eq, junkGen_add ho, junkGen_cut, cellGet_cut, Mem.read_eq]
      by_cases hc : a ≤ x ∧ x < a + n <;> simp [hc]
/-- A byte after a step is what the step saw last. -/
theorem Mem.read_applyWrs {m : Mem} (h : m.wf = true) (l : List Wr) (x : Nat) : (applyWrs m l).read x = (wrLook l x).getD (m.read x) := by
  induction l with
  | nil => rfl
  | cons w r ih =>
    rw [applyWrs, Mem.read_applyWr (Mem.wf_applyWrs h r), ih]
    cases w <;> simp only [wrLook] <;> split <;> rfl
/-- Memory reads, after a step, as the step itself reads it. -/
theorem commit_read {s : State} (h : s.mem.wf = true) (c : Chip) (x : Nat) : (commit s c).mem.read x = rd s.env c x :=
  Mem.read_applyWrs h c.wr x
/-- The end of a step keeps the invariant, whatever the package. -/
theorem commit_inv {s : State} (h : s.Inv) (c : Chip) : (commit s c).Inv := ⟨Mem.wf_applyWrs h.1 c.wr, rfl⟩
/-- Every meaning keeps the invariant. -/
theorem run_inv {s t : State} {f : Env → Chip → Chip} (h : s.Inv) (e : run s f = .next t) : t.Inv := by
  unfold run at e
  injection e with e
  exact e ▸ commit_inv h _

end Sys2Proof.Machine
end

