-- ==== Sys2Proof/Laws/PerInstr.lean ====
section
/-! SUPPORT. Statements made per instruction. Encode: no instruction word has the major opcode 0x00 with every other bit clear, the word
that is always illegal (R112). -/
namespace Sys2Proof.Laws

/-- A sum of fields below 2^32 that is not zero is no zero word. -/
theorem word_ne_zero {k : Nat} (h0 : 0 < k) (h : k < 2 ^ 32) : BitVec.ofNat 32 k ≠ 0 := by
  intro e
  have := congrArg BitVec.toNat e
  rw [BitVec.toNat_ofNat, Nat.mod_eq_of_lt h] at this
  exact Nat.ne_of_gt h0 this
/-- The word of an instruction is not the zero word. -/
def Encode.Statement (i : Instr) : Prop := i.isWord = true → encode i ≠ 0

theorem Encode.add (d : BitVec 5) (a : BitVec 5) (b : BitVec 5) : Encode.Statement (.add d a b) := fun _ => word_ne_zero (by omega) (by have := d.isLt; have := a.isLt; have := b.isLt; omega)
theorem Encode.sub (d : BitVec 5) (a : BitVec 5) (b : BitVec 5) : Encode.Statement (.sub d a b) := fun _ => word_ne_zero (by omega) (by have := d.isLt; have := a.isLt; have := b.isLt; omega)
theorem Encode.and (d : BitVec 5) (a : BitVec 5) (b : BitVec 5) : Encode.Statement (.and d a b) := fun _ => word_ne_zero (by omega) (by have := d.isLt; have := a.isLt; have := b.isLt; omega)
theorem Encode.andn (d : BitVec 5) (a : BitVec 5) (b : BitVec 5) : Encode.Statement (.andn d a b) := fun _ => word_ne_zero (by omega) (by have := d.isLt; have := a.isLt; have := b.isLt; omega)
theorem Encode.or (d : BitVec 5) (a : BitVec 5) (b : BitVec 5) : Encode.Statement (.or d a b) := fun _ => word_ne_zero (by omega) (by have := d.isLt; have := a.isLt; have := b.isLt; omega)
theorem Encode.xor (d : BitVec 5) (a : BitVec 5) (b : BitVec 5) : Encode.Statement (.xor d a b) := fun _ => word_ne_zero (by omega) (by have := d.isLt; have := a.isLt; have := b.isLt; omega)
theorem Encode.sll (d : BitVec 5) (a : BitVec 5) (b : BitVec 5) : Encode.Statement (.sll d a b) := fun _ => word_ne_zero (by omega) (by have := d.isLt; have := a.isLt; have := b.isLt; omega)
theorem Encode.srl (d : BitVec 5) (a : BitVec 5) (b : BitVec 5) : Encode.Statement (.srl d a b) := fun _ => word_ne_zero (by omega) (by have := d.isLt; have := a.isLt; have := b.isLt; omega)
theorem Encode.sra (d : BitVec 5) (a : BitVec 5) (b : BitVec 5) : Encode.Statement (.sra d a b) := fun _ => word_ne_zero (by omega) (by have := d.isLt; have := a.isLt; have := b.isLt; omega)
theorem Encode.mul (d : BitVec 5) (a : BitVec 5) (b : BitVec 5) : Encode.Statement (.mul d a b) := fun _ => word_ne_zero (by omega) (by have := d.isLt; have := a.isLt; have := b.isLt; omega)
theorem Encode.mulh (d : BitVec 5) (a : BitVec 5) (b : BitVec 5) : Encode.Statement (.mulh d a b) := fun _ => word_ne_zero (by omega) (by have := d.isLt; have := a.isLt; have := b.isLt; omega)
theorem Encode.mulhn (d : BitVec 5) (a : BitVec 5) (b : BitVec 5) : Encode.Statement (.mulhn d a b) := fun _ => word_ne_zero (by omega) (by have := d.isLt; have := a.isLt; have := b.isLt; omega)
theorem Encode.div (d : BitVec 5) (a : BitVec 5) (b : BitVec 5) : Encode.Statement (.div d a b) := fun _ => word_ne_zero (by omega) (by have := d.isLt; have := a.isLt; have := b.isLt; omega)
theorem Encode.divn (d : BitVec 5) (a : BitVec 5) (b : BitVec 5) : Encode.Statement (.divn d a b) := fun _ => word_ne_zero (by omega) (by have := d.isLt; have := a.isLt; have := b.isLt; omega)
theorem Encode.rem (d : BitVec 5) (a : BitVec 5) (b : BitVec 5) : Encode.Statement (.rem d a b) := fun _ => word_ne_zero (by omega) (by have := d.isLt; have := a.isLt; have := b.isLt; omega)
theorem Encode.remn (d : BitVec 5) (a : BitVec 5) (b : BitVec 5) : Encode.Statement (.remn d a b) := fun _ => word_ne_zero (by omega) (by have := d.isLt; have := a.isLt; have := b.isLt; omega)
theorem Encode.min (d : BitVec 5) (a : BitVec 5) (b : BitVec 5) : Encode.Statement (.min d a b) := fun _ => word_ne_zero (by omega) (by have := d.isLt; have := a.isLt; have := b.isLt; omega)
theorem Encode.max (d : BitVec 5) (a : BitVec 5) (b : BitVec 5) : Encode.Statement (.max d a b) := fun _ => word_ne_zero (by omega) (by have := d.isLt; have := a.isLt; have := b.isLt; omega)
theorem Encode.minn (d : BitVec 5) (a : BitVec 5) (b : BitVec 5) : Encode.Statement (.minn d a b) := fun _ => word_ne_zero (by omega) (by have := d.isLt; have := a.isLt; have := b.isLt; omega)
theorem Encode.maxn (d : BitVec 5) (a : BitVec 5) (b : BitVec 5) : Encode.Statement (.maxn d a b) := fun _ => word_ne_zero (by omega) (by have := d.isLt; have := a.isLt; have := b.isLt; omega)
theorem Encode.slt (d : BitVec 5) (a : BitVec 5) (b : BitVec 5) : Encode.Statement (.slt d a b) := fun _ => word_ne_zero (by omega) (by have := d.isLt; have := a.isLt; have := b.isLt; omega)
theorem Encode.sltn (d : BitVec 5) (a : BitVec 5) (b : BitVec 5) : Encode.Statement (.sltn d a b) := fun _ => word_ne_zero (by omega) (by have := d.isLt; have := a.isLt; have := b.isLt; omega)
theorem Encode.seq (d : BitVec 5) (a : BitVec 5) (b : BitVec 5) : Encode.Statement (.seq d a b) := fun _ => word_ne_zero (by omega) (by have := d.isLt; have := a.isLt; have := b.isLt; omega)
theorem Encode.clz (d : BitVec 5) (a : BitVec 5) : Encode.Statement (.clz d a) := fun _ => word_ne_zero (by omega) (by have := d.isLt; have := a.isLt; omega)
theorem Encode.ctz (d : BitVec 5) (a : BitVec 5) : Encode.Statement (.ctz d a) := fun _ => word_ne_zero (by omega) (by have := d.isLt; have := a.isLt; omega)
theorem Encode.popc (d : BitVec 5) (a : BitVec 5) : Encode.Statement (.popc d a) := fun _ => word_ne_zero (by omega) (by have := d.isLt; have := a.isLt; omega)
theorem Encode.bext (d : BitVec 5) (a : BitVec 5) (b : BitVec 5) : Encode.Statement (.bext d a b) := fun _ => word_ne_zero (by omega) (by have := d.isLt; have := a.isLt; have := b.isLt; omega)
theorem Encode.bins (d : BitVec 5) (a : BitVec 5) (b : BitVec 5) : Encode.Statement (.bins d a b) := fun _ => word_ne_zero (by omega) (by have := d.isLt; have := a.isLt; have := b.isLt; omega)
theorem Encode.addi (d : BitVec 5) (a : BitVec 5) (i : BitVec 16) : Encode.Statement (.addi d a i) := fun _ => word_ne_zero (by omega) (by have := d.isLt; have := a.isLt; have := i.isLt; omega)
theorem Encode.andi (d : BitVec 5) (a : BitVec 5) (i : BitVec 16) : Encode.Statement (.andi d a i) := fun _ => word_ne_zero (by omega) (by have := d.isLt; have := a.isLt; have := i.isLt; omega)
theorem Encode.ori (d : BitVec 5) (a : BitVec 5) (i : BitVec 16) : Encode.Statement (.ori d a i) := fun _ => word_ne_zero (by omega) (by have := d.isLt; have := a.isLt; have := i.isLt; omega)
theorem Encode.xori (d : BitVec 5) (a : BitVec 5) (i : BitVec 16) : Encode.Statement (.xori d a i) := fun _ => word_ne_zero (by omega) (by have := d.isLt; have := a.isLt; have := i.isLt; omega)
theorem Encode.slti (d : BitVec 5) (a : BitVec 5) (i : BitVec 16) : Encode.Statement (.slti d a i) := fun _ => word_ne_zero (by omega) (by have := d.isLt; have := a.isLt; have := i.isLt; omega)
theorem Encode.sltin (d : BitVec 5) (a : BitVec 5) (i : BitVec 16) : Encode.Statement (.sltin d a i) := fun _ => word_ne_zero (by omega) (by have := d.isLt; have := a.isLt; have := i.isLt; omega)
theorem Encode.slli (d : BitVec 5) (a : BitVec 5) (s : BitVec 6) : Encode.Statement (.slli d a s) := fun _ => word_ne_zero (by omega) (by have := d.isLt; have := a.isLt; have := s.isLt; omega)
theorem Encode.srli (d : BitVec 5) (a : BitVec 5) (s : BitVec 6) : Encode.Statement (.srli d a s) := fun _ => word_ne_zero (by omega) (by have := d.isLt; have := a.isLt; have := s.isLt; omega)
theorem Encode.srai (d : BitVec 5) (a : BitVec 5) (s : BitVec 6) : Encode.Statement (.srai d a s) := fun _ => word_ne_zero (by omega) (by have := d.isLt; have := a.isLt; have := s.isLt; omega)
theorem Encode.lui (d : BitVec 5) (i : BitVec 16) : Encode.Statement (.lui d i) := fun _ => word_ne_zero (by omega) (by have := d.isLt; have := i.isLt; omega)
theorem Encode.apc (d : BitVec 5) (i : BitVec 16) : Encode.Statement (.apc d i) := fun _ => word_ne_zero (by omega) (by have := d.isLt; have := i.isLt; omega)
theorem Encode.jal (d : BitVec 5) (o : BitVec 21) : Encode.Statement (.jal d o) := fun _ => word_ne_zero (by omega) (by have := d.isLt; have := o.isLt; omega)
theorem Encode.jalr (d : BitVec 5) (a : BitVec 5) (i : BitVec 16) : Encode.Statement (.jalr d a i) := fun _ => word_ne_zero (by omega) (by have := d.isLt; have := a.isLt; have := i.isLt; omega)
theorem Encode.beq (a : BitVec 5) (b : BitVec 5) (o : BitVec 16) : Encode.Statement (.beq a b o) := fun _ => word_ne_zero (by omega) (by have := a.isLt; have := b.isLt; have := o.isLt; omega)
theorem Encode.bne (a : BitVec 5) (b : BitVec 5) (o : BitVec 16) : Encode.Statement (.bne a b o) := fun _ => word_ne_zero (by omega) (by have := a.isLt; have := b.isLt; have := o.isLt; omega)
theorem Encode.blt (a : BitVec 5) (b : BitVec 5) (o : BitVec 16) : Encode.Statement (.blt a b o) := fun _ => word_ne_zero (by omega) (by have := a.isLt; have := b.isLt; have := o.isLt; omega)
theorem Encode.bge (a : BitVec 5) (b : BitVec 5) (o : BitVec 16) : Encode.Statement (.bge a b o) := fun _ => word_ne_zero (by omega) (by have := a.isLt; have := b.isLt; have := o.isLt; omega)
theorem Encode.bltn (a : BitVec 5) (b : BitVec 5) (o : BitVec 16) : Encode.Statement (.bltn a b o) := fun _ => word_ne_zero (by omega) (by have := a.isLt; have := b.isLt; have := o.isLt; omega)
theorem Encode.bgen (a : BitVec 5) (b : BitVec 5) (o : BitVec 16) : Encode.Statement (.bgen a b o) := fun _ => word_ne_zero (by omega) (by have := a.isLt; have := b.isLt; have := o.isLt; omega)
theorem Encode.lb (d : BitVec 5) (a : BitVec 5) (o : BitVec 13) : Encode.Statement (.lb d a o) := fun _ => word_ne_zero (by omega) (by have := d.isLt; have := a.isLt; have := o.isLt; omega)
theorem Encode.lbn (d : BitVec 5) (a : BitVec 5) (o : BitVec 13) : Encode.Statement (.lbn d a o) := fun _ => word_ne_zero (by omega) (by have := d.isLt; have := a.isLt; have := o.isLt; omega)
theorem Encode.lh (d : BitVec 5) (a : BitVec 5) (o : BitVec 13) : Encode.Statement (.lh d a o) := fun _ => word_ne_zero (by omega) (by have := d.isLt; have := a.isLt; have := o.isLt; omega)
theorem Encode.lhn (d : BitVec 5) (a : BitVec 5) (o : BitVec 13) : Encode.Statement (.lhn d a o) := fun _ => word_ne_zero (by omega) (by have := d.isLt; have := a.isLt; have := o.isLt; omega)
theorem Encode.lw (d : BitVec 5) (a : BitVec 5) (o : BitVec 13) : Encode.Statement (.lw d a o) := fun _ => word_ne_zero (by omega) (by have := d.isLt; have := a.isLt; have := o.isLt; omega)
theorem Encode.lwn (d : BitVec 5) (a : BitVec 5) (o : BitVec 13) : Encode.Statement (.lwn d a o) := fun _ => word_ne_zero (by omega) (by have := d.isLt; have := a.isLt; have := o.isLt; omega)
theorem Encode.ld (d : BitVec 5) (a : BitVec 5) (o : BitVec 13) : Encode.Statement (.ld d a o) := fun _ => word_ne_zero (by omega) (by have := d.isLt; have := a.isLt; have := o.isLt; omega)
theorem Encode.sb (s : BitVec 5) (a : BitVec 5) (o : BitVec 13) : Encode.Statement (.sb s a o) := fun _ => word_ne_zero (by omega) (by have := s.isLt; have := a.isLt; have := o.isLt; omega)
theorem Encode.sh (s : BitVec 5) (a : BitVec 5) (o : BitVec 13) : Encode.Statement (.sh s a o) := fun _ => word_ne_zero (by omega) (by have := s.isLt; have := a.isLt; have := o.isLt; omega)
theorem Encode.sw (s : BitVec 5) (a : BitVec 5) (o : BitVec 13) : Encode.Statement (.sw s a o) := fun _ => word_ne_zero (by omega) (by have := s.isLt; have := a.isLt; have := o.isLt; omega)
theorem Encode.sd (s : BitVec 5) (a : BitVec 5) (o : BitVec 13) : Encode.Statement (.sd s a o) := fun _ => word_ne_zero (by omega) (by have := s.isLt; have := a.isLt; have := o.isLt; omega)
theorem Encode.stv (d : BitVec 5) (a : BitVec 5) (b : BitVec 5) : Encode.Statement (.stv d a b) := fun _ => word_ne_zero (by omega) (by have := d.isLt; have := a.isLt; have := b.isLt; omega)
theorem Encode.pref (a : BitVec 5) : Encode.Statement (.pref a) := fun _ => word_ne_zero (by omega) (by have := a.isLt; omega)
theorem Encode.l1wb (a : BitVec 5) : Encode.Statement (.l1wb a) := fun _ => word_ne_zero (by omega) (by have := a.isLt; omega)
theorem Encode.l1inv (a : BitVec 5) : Encode.Statement (.l1inv a) := fun _ => word_ne_zero (by omega) (by have := a.isLt; omega)
theorem Encode.hnew (d : BitVec 5) (a : BitVec 5) (b : BitVec 5) : Encode.Statement (.hnew d a b) := fun _ => word_ne_zero (by omega) (by have := d.isLt; have := a.isLt; have := b.isLt; omega)
theorem Encode.hgive (d : BitVec 5) (a : BitVec 5) (b : BitVec 5) : Encode.Statement (.hgive d a b) := fun _ => word_ne_zero (by omega) (by have := d.isLt; have := a.isLt; have := b.isLt; omega)
theorem Encode.hrev (a : BitVec 5) : Encode.Statement (.hrev a) := fun _ => word_ne_zero (by omega) (by have := a.isLt; omega)
theorem Encode.hchk (d : BitVec 5) (a : BitVec 5) : Encode.Statement (.hchk d a) := fun _ => word_ne_zero (by omega) (by have := d.isLt; have := a.isLt; omega)
theorem Encode.fadd (d : BitVec 5) (a : BitVec 5) (b : BitVec 5) (t : BitVec 1) : Encode.Statement (.fadd d a b t) := fun _ => word_ne_zero (by omega) (by have := d.isLt; have := a.isLt; have := b.isLt; have := t.isLt; omega)
theorem Encode.fsub (d : BitVec 5) (a : BitVec 5) (b : BitVec 5) (t : BitVec 1) : Encode.Statement (.fsub d a b t) := fun _ => word_ne_zero (by omega) (by have := d.isLt; have := a.isLt; have := b.isLt; have := t.isLt; omega)
theorem Encode.fmul (d : BitVec 5) (a : BitVec 5) (b : BitVec 5) (t : BitVec 1) : Encode.Statement (.fmul d a b t) := fun _ => word_ne_zero (by omega) (by have := d.isLt; have := a.isLt; have := b.isLt; have := t.isLt; omega)
theorem Encode.ffma (d : BitVec 5) (a : BitVec 5) (b : BitVec 5) (t : BitVec 1) : Encode.Statement (.ffma d a b t) := fun _ => word_ne_zero (by omega) (by have := d.isLt; have := a.isLt; have := b.isLt; have := t.isLt; omega)
theorem Encode.ffms (d : BitVec 5) (a : BitVec 5) (b : BitVec 5) (t : BitVec 1) : Encode.Statement (.ffms d a b t) := fun _ => word_ne_zero (by omega) (by have := d.isLt; have := a.isLt; have := b.isLt; have := t.isLt; omega)
theorem Encode.fdiv (d : BitVec 5) (a : BitVec 5) (b : BitVec 5) (t : BitVec 1) : Encode.Statement (.fdiv d a b t) := fun _ => word_ne_zero (by omega) (by have := d.isLt; have := a.isLt; have := b.isLt; have := t.isLt; omega)
theorem Encode.fsqrt (d : BitVec 5) (a : BitVec 5) (t : BitVec 1) : Encode.Statement (.fsqrt d a t) := fun _ => word_ne_zero (by omega) (by have := d.isLt; have := a.isLt; have := t.isLt; omega)
theorem Encode.fmin (d : BitVec 5) (a : BitVec 5) (b : BitVec 5) (t : BitVec 1) : Encode.Statement (.fmin d a b t) := fun _ => word_ne_zero (by omega) (by have := d.isLt; have := a.isLt; have := b.isLt; have := t.isLt; omega)
theorem Encode.fmax (d : BitVec 5) (a : BitVec 5) (b : BitVec 5) (t : BitVec 1) : Encode.Statement (.fmax d a b t) := fun _ => word_ne_zero (by omega) (by have := d.isLt; have := a.isLt; have := b.isLt; have := t.isLt; omega)
theorem Encode.fceq (d : BitVec 5) (a : BitVec 5) (b : BitVec 5) (t : BitVec 1) : Encode.Statement (.fceq d a b t) := fun _ => word_ne_zero (by omega) (by have := d.isLt; have := a.isLt; have := b.isLt; have := t.isLt; omega)
theorem Encode.fclt (d : BitVec 5) (a : BitVec 5) (b : BitVec 5) (t : BitVec 1) : Encode.Statement (.fclt d a b t) := fun _ => word_ne_zero (by omega) (by have := d.isLt; have := a.isLt; have := b.isLt; have := t.isLt; omega)
theorem Encode.fcle (d : BitVec 5) (a : BitVec 5) (b : BitVec 5) (t : BitVec 1) : Encode.Statement (.fcle d a b t) := fun _ => word_ne_zero (by omega) (by have := d.isLt; have := a.isLt; have := b.isLt; have := t.isLt; omega)
theorem Encode.fcvt (d : BitVec 5) (a : BitVec 5) (s : BitVec 4) (t : BitVec 4) : Encode.Statement (.fcvt d a s t) := fun _ => word_ne_zero (by omega) (by have := d.isLt; have := a.isLt; have := s.isLt; have := t.isLt; omega)
theorem Encode.fclass (d : BitVec 5) (a : BitVec 5) (t : BitVec 1) : Encode.Statement (.fclass d a t) := fun _ => word_ne_zero (by omega) (by have := d.isLt; have := a.isLt; have := t.isLt; omega)
theorem Encode.vadd (d : BitVec 5) (a : BitVec 5) (b : BitVec 5) (k : BitVec 3) (t : BitVec 4) : Encode.Statement (.vadd d a b k t) := fun _ => word_ne_zero (by omega) (by have := d.isLt; have := a.isLt; have := b.isLt; have := k.isLt; have := t.isLt; omega)
theorem Encode.vsub (d : BitVec 5) (a : BitVec 5) (b : BitVec 5) (k : BitVec 3) (t : BitVec 4) : Encode.Statement (.vsub d a b k t) := fun _ => word_ne_zero (by omega) (by have := d.isLt; have := a.isLt; have := b.isLt; have := k.isLt; have := t.isLt; omega)
theorem Encode.vmul (d : BitVec 5) (a : BitVec 5) (b : BitVec 5) (k : BitVec 3) (t : BitVec 4) : Encode.Statement (.vmul d a b k t) := fun _ => word_ne_zero (by omega) (by have := d.isLt; have := a.isLt; have := b.isLt; have := k.isLt; have := t.isLt; omega)
theorem Encode.vfma (d : BitVec 5) (a : BitVec 5) (b : BitVec 5) (k : BitVec 3) (t : BitVec 4) : Encode.Statement (.vfma d a b k t) := fun _ => word_ne_zero (by omega) (by have := d.isLt; have := a.isLt; have := b.isLt; have := k.isLt; have := t.isLt; omega)
theorem Encode.vfms (d : BitVec 5) (a : BitVec 5) (b : BitVec 5) (k : BitVec 3) (t : BitVec 4) : Encode.Statement (.vfms d a b k t) := fun _ => word_ne_zero (by omega) (by have := d.isLt; have := a.isLt; have := b.isLt; have := k.isLt; have := t.isLt; omega)
theorem Encode.vmin (d : BitVec 5) (a : BitVec 5) (b : BitVec 5) (k : BitVec 3) (t : BitVec 4) : Encode.Statement (.vmin d a b k t) := fun _ => word_ne_zero (by omega) (by have := d.isLt; have := a.isLt; have := b.isLt; have := k.isLt; have := t.isLt; omega)
theorem Encode.vmax (d : BitVec 5) (a : BitVec 5) (b : BitVec 5) (k : BitVec 3) (t : BitVec 4) : Encode.Statement (.vmax d a b k t) := fun _ => word_ne_zero (by omega) (by have := d.isLt; have := a.isLt; have := b.isLt; have := k.isLt; have := t.isLt; omega)
theorem Encode.vabs (d : BitVec 5) (a : BitVec 5) (k : BitVec 3) (t : BitVec 4) : Encode.Statement (.vabs d a k t) := fun _ => word_ne_zero (by omega) (by have := d.isLt; have := a.isLt; have := k.isLt; have := t.isLt; omega)
theorem Encode.vneg (d : BitVec 5) (a : BitVec 5) (k : BitVec 3) (t : BitVec 4) : Encode.Statement (.vneg d a k t) := fun _ => word_ne_zero (by omega) (by have := d.isLt; have := a.isLt; have := k.isLt; have := t.isLt; omega)
theorem Encode.vand (d : BitVec 5) (a : BitVec 5) (b : BitVec 5) (k : BitVec 3) (t : BitVec 4) : Encode.Statement (.vand d a b k t) := fun _ => word_ne_zero (by omega) (by have := d.isLt; have := a.isLt; have := b.isLt; have := k.isLt; have := t.isLt; omega)
theorem Encode.vor (d : BitVec 5) (a : BitVec 5) (b : BitVec 5) (k : BitVec 3) (t : BitVec 4) : Encode.Statement (.vor d a b k t) := fun _ => word_ne_zero (by omega) (by have := d.isLt; have := a.isLt; have := b.isLt; have := k.isLt; have := t.isLt; omega)
theorem Encode.vxor (d : BitVec 5) (a : BitVec 5) (b : BitVec 5) (k : BitVec 3) (t : BitVec 4) : Encode.Statement (.vxor d a b k t) := fun _ => word_ne_zero (by omega) (by have := d.isLt; have := a.isLt; have := b.isLt; have := k.isLt; have := t.isLt; omega)
theorem Encode.vsll (d : BitVec 5) (a : BitVec 5) (b : BitVec 5) (k : BitVec 3) (t : BitVec 4) : Encode.Statement (.vsll d a b k t) := fun _ => word_ne_zero (by omega) (by have := d.isLt; have := a.isLt; have := b.isLt; have := k.isLt; have := t.isLt; omega)
theorem Encode.vsrl (d : BitVec 5) (a : BitVec 5) (b : BitVec 5) (k : BitVec 3) (t : BitVec 4) : Encode.Statement (.vsrl d a b k t) := fun _ => word_ne_zero (by omega) (by have := d.isLt; have := a.isLt; have := b.isLt; have := k.isLt; have := t.isLt; omega)
theorem Encode.vsra (d : BitVec 5) (a : BitVec 5) (b : BitVec 5) (k : BitVec 3) (t : BitVec 4) : Encode.Statement (.vsra d a b k t) := fun _ => word_ne_zero (by omega) (by have := d.isLt; have := a.isLt; have := b.isLt; have := k.isLt; have := t.isLt; omega)
theorem Encode.vcmpeq (d : BitVec 5) (a : BitVec 5) (b : BitVec 5) (k : BitVec 3) (t : BitVec 4) : Encode.Statement (.vcmpeq d a b k t) := fun _ => word_ne_zero (by omega) (by have := d.isLt; have := a.isLt; have := b.isLt; have := k.isLt; have := t.isLt; omega)
theorem Encode.vcmplt (d : BitVec 5) (a : BitVec 5) (b : BitVec 5) (k : BitVec 3) (t : BitVec 4) : Encode.Statement (.vcmplt d a b k t) := fun _ => word_ne_zero (by omega) (by have := d.isLt; have := a.isLt; have := b.isLt; have := k.isLt; have := t.isLt; omega)
theorem Encode.vcmple (d : BitVec 5) (a : BitVec 5) (b : BitVec 5) (k : BitVec 3) (t : BitVec 4) : Encode.Statement (.vcmple d a b k t) := fun _ => word_ne_zero (by omega) (by have := d.isLt; have := a.isLt; have := b.isLt; have := k.isLt; have := t.isLt; omega)
theorem Encode.vsel (d : BitVec 5) (a : BitVec 5) (b : BitVec 5) (k : BitVec 3) (t : BitVec 4) : Encode.Statement (.vsel d a b k t) := fun _ => word_ne_zero (by omega) (by have := d.isLt; have := a.isLt; have := b.isLt; have := k.isLt; have := t.isLt; omega)
theorem Encode.vredadd (d : BitVec 5) (a : BitVec 5) (k : BitVec 3) (t : BitVec 4) : Encode.Statement (.vredadd d a k t) := fun _ => word_ne_zero (by omega) (by have := d.isLt; have := a.isLt; have := k.isLt; have := t.isLt; omega)
theorem Encode.vredmax (d : BitVec 5) (a : BitVec 5) (k : BitVec 3) (t : BitVec 4) : Encode.Statement (.vredmax d a k t) := fun _ => word_ne_zero (by omega) (by have := d.isLt; have := a.isLt; have := k.isLt; have := t.isLt; omega)
theorem Encode.vredmin (d : BitVec 5) (a : BitVec 5) (k : BitVec 3) (t : BitVec 4) : Encode.Statement (.vredmin d a k t) := fun _ => word_ne_zero (by omega) (by have := d.isLt; have := a.isLt; have := k.isLt; have := t.isLt; omega)
theorem Encode.vamax (d : BitVec 5) (a : BitVec 5) (k : BitVec 3) (t : BitVec 4) : Encode.Statement (.vamax d a k t) := fun _ => word_ne_zero (by omega) (by have := d.isLt; have := a.isLt; have := k.isLt; have := t.isLt; omega)
theorem Encode.vcvt (d : BitVec 5) (a : BitVec 5) (s : BitVec 4) (k : BitVec 3) (t : BitVec 4) : Encode.Statement (.vcvt d a s k t) := fun _ => word_ne_zero (by omega) (by have := d.isLt; have := a.isLt; have := s.isLt; have := k.isLt; have := t.isLt; omega)
theorem Encode.vqnt (d : BitVec 5) (a : BitVec 5) (b : BitVec 5) (k : BitVec 3) (t : BitVec 4) : Encode.Statement (.vqnt d a b k t) := fun _ => word_ne_zero (by omega) (by have := d.isLt; have := a.isLt; have := b.isLt; have := k.isLt; have := t.isLt; omega)
theorem Encode.vdqnt (d : BitVec 5) (a : BitVec 5) (b : BitVec 5) (k : BitVec 3) (t : BitVec 4) : Encode.Statement (.vdqnt d a b k t) := fun _ => word_ne_zero (by omega) (by have := d.isLt; have := a.isLt; have := b.isLt; have := k.isLt; have := t.isLt; omega)
theorem Encode.vexp2 (d : BitVec 5) (a : BitVec 5) (k : BitVec 3) (t : BitVec 4) : Encode.Statement (.vexp2 d a k t) := fun _ => word_ne_zero (by omega) (by have := d.isLt; have := a.isLt; have := k.isLt; have := t.isLt; omega)
theorem Encode.vlog2 (d : BitVec 5) (a : BitVec 5) (k : BitVec 3) (t : BitVec 4) : Encode.Statement (.vlog2 d a k t) := fun _ => word_ne_zero (by omega) (by have := d.isLt; have := a.isLt; have := k.isLt; have := t.isLt; omega)
theorem Encode.vrcp (d : BitVec 5) (a : BitVec 5) (k : BitVec 3) (t : BitVec 4) : Encode.Statement (.vrcp d a k t) := fun _ => word_ne_zero (by omega) (by have := d.isLt; have := a.isLt; have := k.isLt; have := t.isLt; omega)
theorem Encode.vrsq (d : BitVec 5) (a : BitVec 5) (k : BitVec 3) (t : BitVec 4) : Encode.Statement (.vrsq d a k t) := fun _ => word_ne_zero (by omega) (by have := d.isLt; have := a.isLt; have := k.isLt; have := t.isLt; omega)
theorem Encode.vperm (d : BitVec 5) (a : BitVec 5) (b : BitVec 5) (k : BitVec 3) (t : BitVec 4) : Encode.Statement (.vperm d a b k t) := fun _ => word_ne_zero (by omega) (by have := d.isLt; have := a.isLt; have := b.isLt; have := k.isLt; have := t.isLt; omega)
theorem Encode.vshuf (d : BitVec 5) (a : BitVec 5) (b : BitVec 5) (k : BitVec 3) (t : BitVec 4) : Encode.Statement (.vshuf d a b k t) := fun _ => word_ne_zero (by omega) (by have := d.isLt; have := a.isLt; have := b.isLt; have := k.isLt; have := t.isLt; omega)
theorem Encode.vbcast (d : BitVec 5) (a : BitVec 5) (k : BitVec 3) (t : BitVec 4) : Encode.Statement (.vbcast d a k t) := fun _ => word_ne_zero (by omega) (by have := d.isLt; have := a.isLt; have := k.isLt; have := t.isLt; omega)
theorem Encode.vext (d : BitVec 5) (a : BitVec 5) (b : BitVec 5) (t : BitVec 4) : Encode.Statement (.vext d a b t) := fun _ => word_ne_zero (by omega) (by have := d.isLt; have := a.isLt; have := b.isLt; have := t.isLt; omega)
theorem Encode.vins (d : BitVec 5) (a : BitVec 5) (b : BitVec 5) (t : BitVec 4) : Encode.Statement (.vins d a b t) := fun _ => word_ne_zero (by omega) (by have := d.isLt; have := a.isLt; have := b.isLt; have := t.isLt; omega)
theorem Encode.vld (d : BitVec 5) (a : BitVec 5) (k : BitVec 3) (t : BitVec 4) : Encode.Statement (.vld d a k t) := fun _ => word_ne_zero (by omega) (by have := d.isLt; have := a.isLt; have := k.isLt; have := t.isLt; omega)
theorem Encode.vst (d : BitVec 5) (a : BitVec 5) (k : BitVec 3) (t : BitVec 4) : Encode.Statement (.vst d a k t) := fun _ => word_ne_zero (by omega) (by have := d.isLt; have := a.isLt; have := k.isLt; have := t.isLt; omega)
theorem Encode.vlds (d : BitVec 5) (a : BitVec 5) (b : BitVec 5) (k : BitVec 3) (t : BitVec 4) : Encode.Statement (.vlds d a b k t) := fun _ => word_ne_zero (by omega) (by have := d.isLt; have := a.isLt; have := b.isLt; have := k.isLt; have := t.isLt; omega)
theorem Encode.vsts (d : BitVec 5) (a : BitVec 5) (b : BitVec 5) (k : BitVec 3) (t : BitVec 4) : Encode.Statement (.vsts d a b k t) := fun _ => word_ne_zero (by omega) (by have := d.isLt; have := a.isLt; have := b.isLt; have := k.isLt; have := t.isLt; omega)
theorem Encode.vgth (d : BitVec 5) (a : BitVec 5) (b : BitVec 5) (k : BitVec 3) (t : BitVec 4) : Encode.Statement (.vgth d a b k t) := fun _ => word_ne_zero (by omega) (by have := d.isLt; have := a.isLt; have := b.isLt; have := k.isLt; have := t.isLt; omega)
theorem Encode.vsct (d : BitVec 5) (a : BitVec 5) (b : BitVec 5) (k : BitVec 3) (t : BitVec 4) : Encode.Statement (.vsct d a b k t) := fun _ => word_ne_zero (by omega) (by have := d.isLt; have := a.isLt; have := b.isLt; have := k.isLt; have := t.isLt; omega)
theorem Encode.kand (d : BitVec 5) (a : BitVec 5) (b : BitVec 5) : Encode.Statement (.kand d a b) := fun _ => word_ne_zero (by omega) (by have := d.isLt; have := a.isLt; have := b.isLt; omega)
theorem Encode.kor (d : BitVec 5) (a : BitVec 5) (b : BitVec 5) : Encode.Statement (.kor d a b) := fun _ => word_ne_zero (by omega) (by have := d.isLt; have := a.isLt; have := b.isLt; omega)
theorem Encode.knot (d : BitVec 5) (a : BitVec 5) : Encode.Statement (.knot d a) := fun _ => word_ne_zero (by omega) (by have := d.isLt; have := a.isLt; omega)
theorem Encode.kmov (d : BitVec 5) (a : BitVec 5) : Encode.Statement (.kmov d a) := fun _ => word_ne_zero (by omega) (by have := d.isLt; have := a.isLt; omega)
theorem Encode.kmovFromX (d : BitVec 5) (a : BitVec 5) : Encode.Statement (.kmovFromX d a) := fun _ => word_ne_zero (by omega) (by have := d.isLt; have := a.isLt; omega)
theorem Encode.kmovToX (d : BitVec 5) (a : BitVec 5) : Encode.Statement (.kmovToX d a) := fun _ => word_ne_zero (by omega) (by have := d.isLt; have := a.isLt; omega)
theorem Encode.macq (d : BitVec 3) : Encode.Statement (.macq d) := fun _ => word_ne_zero (by omega) (by have := d.isLt; omega)
theorem Encode.mrel (d : BitVec 3) : Encode.Statement (.mrel d) := fun _ => word_ne_zero (by omega) (by have := d.isLt; omega)
theorem Encode.mld (d : BitVec 3) (s : BitVec 5) : Encode.Statement (.mld d s) := fun _ => word_ne_zero (by omega) (by have := d.isLt; have := s.isLt; omega)
theorem Encode.mst (d : BitVec 3) (s : BitVec 5) : Encode.Statement (.mst d s) := fun _ => word_ne_zero (by omega) (by have := d.isLt; have := s.isLt; omega)
theorem Encode.mzero (d : BitVec 3) : Encode.Statement (.mzero d) := fun _ => word_ne_zero (by omega) (by have := d.isLt; omega)
theorem Encode.mma (d : BitVec 3) (a : BitVec 3) (b : BitVec 3) : Encode.Statement (.mma d a b) := fun _ => word_ne_zero (by omega) (by have := d.isLt; have := a.isLt; have := b.isLt; omega)
theorem Encode.mmas (d : BitVec 3) (a : BitVec 3) (b : BitVec 3) (m : BitVec 3) : Encode.Statement (.mmas d a b m) := fun _ => word_ne_zero (by omega) (by have := d.isLt; have := a.isLt; have := b.isLt; have := m.isLt; omega)
theorem Encode.madd (d : BitVec 3) (a : BitVec 3) (b : BitVec 3) : Encode.Statement (.madd d a b) := fun _ => word_ne_zero (by omega) (by have := d.isLt; have := a.isLt; have := b.isLt; omega)
theorem Encode.mscl (d : BitVec 3) (a : BitVec 3) (s : BitVec 5) : Encode.Statement (.mscl d a s) := fun _ => word_ne_zero (by omega) (by have := d.isLt; have := a.isLt; have := s.isLt; omega)
theorem Encode.mcvt (d : BitVec 3) (a : BitVec 3) : Encode.Statement (.mcvt d a) := fun _ => word_ne_zero (by omega) (by have := d.isLt; have := a.isLt; omega)
theorem Encode.mtrn (d : BitVec 3) (a : BitVec 3) : Encode.Statement (.mtrn d a) := fun _ => word_ne_zero (by omega) (by have := d.isLt; have := a.isLt; omega)
theorem Encode.mgeo (s : BitVec 5) (l : BitVec 3) : Encode.Statement (.mgeo s l) := fun _ => word_ne_zero (by omega) (by have := s.isLt; have := l.isLt; omega)
theorem Encode.cpstat (a : BitVec 5) (d : BitVec 5) : Encode.Statement (.cpstat a d) := fun _ => word_ne_zero (by omega) (by have := a.isLt; have := d.isLt; omega)
theorem Encode.cpkill (a : BitVec 5) : Encode.Statement (.cpkill a) := fun _ => word_ne_zero (by omega) (by have := a.isLt; omega)
theorem Encode.mkfull (a : BitVec 5) (b : BitVec 5) : Encode.Statement (.mkfull a b) := fun _ => word_ne_zero (by omega) (by have := a.isLt; have := b.isLt; omega)
theorem Encode.mkempty (a : BitVec 5) (b : BitVec 5) : Encode.Statement (.mkempty a b) := fun _ => word_ne_zero (by omega) (by have := a.isLt; have := b.isLt; omega)
theorem Encode.festat (a : BitVec 5) (d : BitVec 5) : Encode.Statement (.festat a d) := fun _ => word_ne_zero (by omega) (by have := a.isLt; have := d.isLt; omega)
theorem Encode.waddr (a : BitVec 5) (b : BitVec 5) : Encode.Statement (.waddr a b) := fun _ => word_ne_zero (by omega) (by have := a.isLt; have := b.isLt; omega)
theorem Encode.loop (l : BitVec 2) (a : BitVec 5) (b : BitVec 5) : Encode.Statement (.loop l a b) := fun _ => word_ne_zero (by omega) (by have := l.isLt; have := a.isLt; have := b.isLt; omega)
theorem Encode.mtc (a : BitVec 5) (c : BitVec 12) : Encode.Statement (.mtc a c) := fun _ => word_ne_zero (by omega) (by have := a.isLt; have := c.isLt; omega)
theorem Encode.mfc (d : BitVec 5) (c : BitVec 12) : Encode.Statement (.mfc d c) := fun _ => word_ne_zero (by omega) (by have := d.isLt; have := c.isLt; omega)
theorem Encode.cpgo (d : BitVec 5) : Encode.Statement (.cpgo d) := fun _ => word_ne_zero (by omega) (by have := d.isLt; omega)
theorem Encode.fence (s : BitVec 4) (k : BitVec 2) : Encode.Statement (.fence s k) := fun _ => word_ne_zero (by omega) (by have := s.isLt; have := k.isLt; omega)
theorem Encode.ldacq (d : BitVec 5) (a : BitVec 5) (s : BitVec 4) : Encode.Statement (.ldacq d a s) := fun _ => word_ne_zero (by omega) (by have := d.isLt; have := a.isLt; have := s.isLt; omega)
theorem Encode.strel (a : BitVec 5) (b : BitVec 5) (s : BitVec 4) : Encode.Statement (.strel a b s) := fun _ => word_ne_zero (by omega) (by have := a.isLt; have := b.isLt; have := s.isLt; omega)
theorem Encode.gtwait (a : BitVec 5) : Encode.Statement (.gtwait a) := fun _ => word_ne_zero (by omega) (by have := a.isLt; omega)
theorem Encode.amadd (d : BitVec 5) (a : BitVec 5) (b : BitVec 5) (w : BitVec 1) : Encode.Statement (.amadd d a b w) := fun _ => word_ne_zero (by omega) (by have := d.isLt; have := a.isLt; have := b.isLt; have := w.isLt; omega)
theorem Encode.amand (d : BitVec 5) (a : BitVec 5) (b : BitVec 5) (w : BitVec 1) : Encode.Statement (.amand d a b w) := fun _ => word_ne_zero (by omega) (by have := d.isLt; have := a.isLt; have := b.isLt; have := w.isLt; omega)
theorem Encode.amor (d : BitVec 5) (a : BitVec 5) (b : BitVec 5) (w : BitVec 1) : Encode.Statement (.amor d a b w) := fun _ => word_ne_zero (by omega) (by have := d.isLt; have := a.isLt; have := b.isLt; have := w.isLt; omega)
theorem Encode.amxor (d : BitVec 5) (a : BitVec 5) (b : BitVec 5) (w : BitVec 1) : Encode.Statement (.amxor d a b w) := fun _ => word_ne_zero (by omega) (by have := d.isLt; have := a.isLt; have := b.isLt; have := w.isLt; omega)
theorem Encode.ammin (d : BitVec 5) (a : BitVec 5) (b : BitVec 5) (w : BitVec 1) : Encode.Statement (.ammin d a b w) := fun _ => word_ne_zero (by omega) (by have := d.isLt; have := a.isLt; have := b.isLt; have := w.isLt; omega)
theorem Encode.ammax (d : BitVec 5) (a : BitVec 5) (b : BitVec 5) (w : BitVec 1) : Encode.Statement (.ammax d a b w) := fun _ => word_ne_zero (by omega) (by have := d.isLt; have := a.isLt; have := b.isLt; have := w.isLt; omega)
theorem Encode.amminn (d : BitVec 5) (a : BitVec 5) (b : BitVec 5) (w : BitVec 1) : Encode.Statement (.amminn d a b w) := fun _ => word_ne_zero (by omega) (by have := d.isLt; have := a.isLt; have := b.isLt; have := w.isLt; omega)
theorem Encode.ammaxn (d : BitVec 5) (a : BitVec 5) (b : BitVec 5) (w : BitVec 1) : Encode.Statement (.ammaxn d a b w) := fun _ => word_ne_zero (by omega) (by have := d.isLt; have := a.isLt; have := b.isLt; have := w.isLt; omega)
theorem Encode.amswp (d : BitVec 5) (a : BitVec 5) (b : BitVec 5) (w : BitVec 1) : Encode.Statement (.amswp d a b w) := fun _ => word_ne_zero (by omega) (by have := d.isLt; have := a.isLt; have := b.isLt; have := w.isLt; omega)
theorem Encode.amcas (d : BitVec 5) (a : BitVec 5) (b : BitVec 5) (w : BitVec 1) : Encode.Statement (.amcas d a b w) := fun _ => word_ne_zero (by omega) (by have := d.isLt; have := a.isLt; have := b.isLt; have := w.isLt; omega)
theorem Encode.amfadd (d : BitVec 5) (a : BitVec 5) (b : BitVec 5) : Encode.Statement (.amfadd d a b) := fun _ => word_ne_zero (by omega) (by have := d.isLt; have := a.isLt; have := b.isLt; omega)
theorem Encode.amdadd (d : BitVec 5) (a : BitVec 5) (b : BitVec 5) : Encode.Statement (.amdadd d a b) := fun _ => word_ne_zero (by omega) (by have := d.isLt; have := a.isLt; have := b.isLt; omega)
theorem Encode.lock (d : BitVec 5) (a : BitVec 5) (b : BitVec 5) : Encode.Statement (.lock d a b) := fun _ => word_ne_zero (by omega) (by have := d.isLt; have := a.isLt; have := b.isLt; omega)
theorem Encode.unlock (a : BitVec 5) : Encode.Statement (.unlock a) := fun _ => word_ne_zero (by omega) (by have := a.isLt; omega)
theorem Encode.lktry (d : BitVec 5) (a : BitVec 5) : Encode.Statement (.lktry d a) := fun _ => word_ne_zero (by omega) (by have := d.isLt; have := a.isLt; omega)
theorem Encode.lkq (d : BitVec 5) (a : BitVec 5) : Encode.Statement (.lkq d a) := fun _ => word_ne_zero (by omega) (by have := d.isLt; have := a.isLt; omega)
theorem Encode.wait (l : BitVec 4) (s : BitVec 4) (c : BitVec 4) (m : BitVec 4) (g : BitVec 4) : Encode.Statement (.wait l s c m g) := fun _ => word_ne_zero (by omega) (by have := l.isLt; have := s.isLt; have := c.isLt; have := m.isLt; have := g.isLt; omega)
theorem Encode.send (a : BitVec 5) (b : BitVec 5) : Encode.Statement (.send a b) := fun _ => word_ne_zero (by omega) (by have := a.isLt; have := b.isLt; omega)
theorem Encode.sendn (d : BitVec 5) (a : BitVec 5) (b : BitVec 5) : Encode.Statement (.sendn d a b) := fun _ => word_ne_zero (by omega) (by have := d.isLt; have := a.isLt; have := b.isLt; omega)
theorem Encode.callat (d : BitVec 5) (a : BitVec 5) (b : BitVec 5) : Encode.Statement (.callat d a b) := fun _ => word_ne_zero (by omega) (by have := d.isLt; have := a.isLt; have := b.isLt; omega)
theorem Encode.rwi (a : BitVec 5) (b : BitVec 5) : Encode.Statement (.rwi a b) := fun _ => word_ne_zero (by omega) (by have := a.isLt; have := b.isLt; omega)
theorem Encode.arm (d : BitVec 5) (a : BitVec 5) (b : BitVec 5) : Encode.Statement (.arm d a b) := fun _ => word_ne_zero (by omega) (by have := d.isLt; have := a.isLt; have := b.isLt; omega)
theorem Encode.disarm (a : BitVec 5) : Encode.Statement (.disarm a) := fun _ => word_ne_zero (by omega) (by have := a.isLt; omega)
theorem Encode.watch (d : BitVec 5) (a : BitVec 5) (b : BitVec 5) : Encode.Statement (.watch d a b) := fun _ => word_ne_zero (by omega) (by have := d.isLt; have := a.isLt; have := b.isLt; omega)
theorem Encode.rewatch (d : BitVec 5) (a : BitVec 5) (b : BitVec 5) : Encode.Statement (.rewatch d a b) := fun _ => word_ne_zero (by omega) (by have := d.isLt; have := a.isLt; have := b.isLt; omega)
theorem Encode.apin (d : BitVec 5) (a : BitVec 5) (b : BitVec 5) : Encode.Statement (.apin d a b) := fun _ => word_ne_zero (by omega) (by have := d.isLt; have := a.isLt; have := b.isLt; omega)
theorem Encode.aunpin (a : BitVec 5) : Encode.Statement (.aunpin a) := fun _ => word_ne_zero (by omega) (by have := a.isLt; omega)
theorem Encode.hmsg (a : BitVec 5) (b : BitVec 5) : Encode.Statement (.hmsg a b) := fun _ => word_ne_zero (by omega) (by have := a.isLt; have := b.isLt; omega)
theorem Encode.commit (d : BitVec 5) (a : BitVec 5) (b : BitVec 5) : Encode.Statement (.commit d a b) := fun _ => word_ne_zero (by omega) (by have := d.isLt; have := a.isLt; have := b.isLt; omega)
theorem Encode.seal (d : BitVec 5) : Encode.Statement (.seal d) := fun _ => word_ne_zero (by omega) (by have := d.isLt; omega)
theorem Encode.claimq (d : BitVec 5) (a : BitVec 5) : Encode.Statement (.claimq d a) := fun _ => word_ne_zero (by omega) (by have := d.isLt; have := a.isLt; omega)
theorem Encode.rpin (d : BitVec 5) (a : BitVec 5) (b : BitVec 5) : Encode.Statement (.rpin d a b) := fun _ => word_ne_zero (by omega) (by have := d.isLt; have := a.isLt; have := b.isLt; omega)
theorem Encode.runpin (a : BitVec 5) : Encode.Statement (.runpin a) := fun _ => word_ne_zero (by omega) (by have := a.isLt; omega)
theorem Encode.wkq (d : BitVec 5) (a : BitVec 5) (b : BitVec 5) : Encode.Statement (.wkq d a b) := fun _ => word_ne_zero (by omega) (by have := d.isLt; have := a.isLt; have := b.isLt; omega)
theorem Encode.wkcan (d : BitVec 5) (a : BitVec 5) (b : BitVec 5) : Encode.Statement (.wkcan d a b) := fun _ => word_ne_zero (by omega) (by have := d.isLt; have := a.isLt; have := b.isLt; omega)
theorem Encode.done : Encode.Statement .done := fun _ => word_ne_zero (by decide) (by decide)
theorem Encode.trap (c : BitVec 6) : Encode.Statement (.trap c) := fun _ => word_ne_zero (by omega) (by have := c.isLt; omega)
theorem Encode.eret : Encode.Statement .eret := fun _ => word_ne_zero (by decide) (by decide)
theorem Encode.idle : Encode.Statement .idle := fun _ => word_ne_zero (by decide) (by decide)
theorem Encode.brk (c : BitVec 6) : Encode.Statement (.brk c) := fun _ => word_ne_zero (by omega) (by have := c.isLt; omega)
theorem Encode.tlbinv (a : BitVec 5) (b : BitVec 5) : Encode.Statement (.tlbinv a b) := fun _ => word_ne_zero (by omega) (by have := a.isLt; have := b.isLt; omega)
theorem Encode.ctxsv (a : BitVec 5) : Encode.Statement (.ctxsv a) := fun _ => word_ne_zero (by omega) (by have := a.isLt; omega)
theorem Encode.ctxld (a : BitVec 5) : Encode.Statement (.ctxld a) := fun _ => word_ne_zero (by omega) (by have := a.isLt; omega)
theorem Encode.fltack (a : BitVec 5) : Encode.Statement (.fltack a) := fun _ => word_ne_zero (by omega) (by have := a.isLt; omega)
theorem Encode.yield : Encode.Statement .yield := fun _ => word_ne_zero (by decide) (by decide)
theorem Encode.fmt (a : BitVec 4) (b : BitVec 4) (r : BitVec 2) (s : BitVec 2) : Encode.Statement (.fmt a b r s) := fun _ => word_ne_zero (by omega) (by have := a.isLt; have := b.isLt; have := r.isLt; have := s.isLt; omega)
theorem Encode.receiverFault (xk : Nat) (r : Option Refused) : Encode.Statement (.receiverFault xk r) := fun h => absurd h Bool.false_ne_true
theorem Encode.upcall (xk : Nat) : Encode.Statement (.upcall xk) := fun h => absurd h Bool.false_ne_true
theorem Encode.notice (ck token : Nat) (err : Bool) : Encode.Statement (.notice ck token err) := fun h => absurd h Bool.false_ne_true
theorem Encode.fback (die : Nat) (value : W64) : Encode.Statement (.fback die value) := fun h => absurd h Bool.false_ne_true
theorem Encode.faultRetry (q : Req) : Encode.Statement (.faultRetry q) := fun h => absurd h Bool.false_ne_true
theorem Encode.halt (die core ctx : Nat) : Encode.Statement (.halt die core ctx) := fun h => absurd h Bool.false_ne_true
theorem Encode.haltAll (die core : Nat) : Encode.Statement (.haltAll die core) := fun h => absurd h Bool.false_ne_true
theorem Encode.resume (die core ctx : Nat) : Encode.Statement (.resume die core ctx) := fun h => absurd h Bool.false_ne_true
theorem Encode.tlbcmd (vi : Nat) (value : W64) : Encode.Statement (.tlbcmd vi value) := fun h => absurd h Bool.false_ne_true
theorem Encode.inval (die vi : Nat) (all : Bool) (va : W64) (by_ : Option Nat) : Encode.Statement (.inval die vi all va by_) := fun h => absurd h Bool.false_ne_true
theorem Encode.cmapswp (die : Nat) (value : W64) : Encode.Statement (.cmapswp die value) := fun h => absurd h Bool.false_ne_true
theorem Encode.swapTransferDone (die : Nat) : Encode.Statement (.swapTransferDone die) := fun h => absurd h Bool.false_ne_true
theorem Encode.srsplit (die : Nat) (value : W64) : Encode.Statement (.srsplit die value) := fun h => absurd h Bool.false_ne_true
theorem Encode.splitEffect (die : Nat) : Encode.Statement (.splitEffect die) := fun h => absurd h Bool.false_ne_true
theorem Encode.tailw (vi slot : Nat) (value : W64) : Encode.Statement (.tailw vi slot value) := fun h => absurd h Bool.false_ne_true
theorem Encode.cheadw (vi slot : Nat) (value : W64) : Encode.Statement (.cheadw vi slot value) := fun h => absurd h Bool.false_ne_true
theorem Encode.qtail (queue tail : Nat) : Encode.Statement (.qtail queue tail) := fun h => absurd h Bool.false_ne_true
theorem Encode.qchead (queue head : Nat) : Encode.Statement (.qchead queue head) := fun h => absurd h Bool.false_ne_true
theorem Encode.qctl (queue : Nat) (value : W64) : Encode.Statement (.qctl queue value) := fun h => absurd h Bool.false_ne_true
theorem Encode.victl (vi : Nat) (value : W64) : Encode.Statement (.victl vi value) := fun h => absurd h Bool.false_ne_true
theorem Encode.keyInstall (vi : Nat) : Encode.Statement (.keyInstall vi) := fun h => absurd h Bool.false_ne_true
theorem Encode.teardownComplete (vi : Nat) : Encode.Statement (.teardownComplete vi) := fun h => absurd h Bool.false_ne_true
theorem Encode.qLaunch (queue : Nat) : Encode.Statement (.qLaunch queue) := fun h => absurd h Bool.false_ne_true
theorem Encode.qGraph (queue : Nat) : Encode.Statement (.qGraph queue) := fun h => absurd h Bool.false_ne_true
theorem Encode.qCancel (queue : Nat) : Encode.Statement (.qCancel queue) := fun h => absurd h Bool.false_ne_true
theorem Encode.hmsgEntry (queue : Nat) : Encode.Statement (.hmsgEntry queue) := fun h => absurd h Bool.false_ne_true
theorem Encode.qfence (queue : Nat) : Encode.Statement (.qfence queue) := fun h => absurd h Bool.false_ne_true
theorem Encode.entryUnreadable (queue : Nat) : Encode.Statement (.entryUnreadable queue) := fun h => absurd h Bool.false_ne_true
theorem Encode.completionRecord (queue : Nat) : Encode.Statement (.completionRecord queue) := fun h => absurd h Bool.false_ne_true
theorem Encode.cwrite (queue : Nat) : Encode.Statement (.cwrite queue) := fun h => absurd h Bool.false_ne_true
theorem Encode.hmsgDelivery (m : HostMsg) : Encode.Statement (.hmsgDelivery m) := fun h => absurd h Bool.false_ne_true
theorem Encode.hmsgRetry (m : HostMsg) : Encode.Statement (.hmsgRetry m) := fun h => absurd h Bool.false_ne_true
theorem Encode.handlerMessage (m : HandMsg) : Encode.Statement (.handlerMessage m) := fun h => absurd h Bool.false_ne_true
theorem Encode.placementDecision (die : Nat) : Encode.Statement (.placementDecision die) := fun h => absurd h Bool.false_ne_true
theorem Encode.blockSteal (die : Nat) : Encode.Statement (.blockSteal die) := fun h => absurd h Bool.false_ne_true
theorem Encode.dispatchReport (die frm untouched queued : Nat) : Encode.Statement (.dispatchReport die frm untouched queued) := fun h => absurd h Bool.false_ne_true
theorem Encode.descriptorRead (u : URef) : Encode.Statement (.descriptorRead u) := fun h => absurd h Bool.false_ne_true
theorem Encode.pinRequest (q : Req) : Encode.Statement (.pinRequest q) := fun h => absurd h Bool.false_ne_true
theorem Encode.pinReply (q : Req) (home : Nat) (ans : PinAns) : Encode.Statement (.pinReply q home ans) := fun h => absurd h Bool.false_ne_true
theorem Encode.pinRetry (q : Req) : Encode.Statement (.pinRetry q) := fun h => absurd h Bool.false_ne_true
theorem Encode.gangDrain (vi lid : Nat) : Encode.Statement (.gangDrain vi lid) := fun h => absurd h Bool.false_ne_true
theorem Encode.gangReserve (vi lid : Nat) : Encode.Statement (.gangReserve vi lid) := fun h => absurd h Bool.false_ne_true
theorem Encode.hedgeSample : Encode.Statement .hedgeSample := fun h => absurd h Bool.false_ne_true
theorem Encode.budgetCheck (b : BReq) : Encode.Statement (.budgetCheck b) := fun h => absurd h Bool.false_ne_true
theorem Encode.backupRequest (b : BReq) : Encode.Statement (.backupRequest b) := fun h => absurd h Bool.false_ne_true
theorem Encode.hedgeRequestTimeout (b : BReq) : Encode.Statement (.hedgeRequestTimeout b) := fun h => absurd h Bool.false_ne_true
theorem Encode.budgetRefill : Encode.Statement .budgetRefill := fun h => absurd h Bool.false_ne_true
theorem Encode.translate (q : Req) : Encode.Statement (.translate q) := fun h => absurd h Bool.false_ne_true
theorem Encode.loadRequest (q : Req) : Encode.Statement (.loadRequest q) := fun h => absurd h Bool.false_ne_true
theorem Encode.loadReply (q : Req) (data fill : List Byte) (expiry : Nat) : Encode.Statement (.loadReply q data fill expiry) := fun h => absurd h Bool.false_ne_true
theorem Encode.storeRequest (q : Req) : Encode.Statement (.storeRequest q) := fun h => absurd h Bool.false_ne_true
theorem Encode.storeAck (q : Req) (vt : Nat) : Encode.Statement (.storeAck q vt) := fun h => absurd h Bool.false_ne_true
theorem Encode.leaseExpiry (ck : Nat) (vi : Nat) (va : W64) : Encode.Statement (.leaseExpiry ck vi va) := fun h => absurd h Bool.false_ne_true
theorem Encode.writeBack (w : WriteBack) : Encode.Statement (.writeBack w) := fun h => absurd h Bool.false_ne_true
theorem Encode.flush (ck vi : Nat) (page : W64) (size : Nat) (die : Nat) : Encode.Statement (.flush ck vi page size die) := fun h => absurd h Bool.false_ne_true
theorem Encode.flushAck (die vi : Nat) (page : Flushed) : Encode.Statement (.flushAck die vi page) := fun h => absurd h Bool.false_ne_true
theorem Encode.handleUpdate (q : Req) : Encode.Statement (.handleUpdate q) := fun h => absurd h Bool.false_ne_true
theorem Encode.copyBegin (ck : Nat) : Encode.Statement (.copyBegin ck) := fun h => absurd h Bool.false_ne_true
theorem Encode.copyConditionalWrite (ck id : Nat) : Encode.Statement (.copyConditionalWrite ck id) := fun h => absurd h Bool.false_ne_true
theorem Encode.copyComplete (ck id : Nat) : Encode.Statement (.copyComplete ck id) := fun h => absurd h Bool.false_ne_true
theorem Encode.waddrRetry (q : Req) : Encode.Statement (.waddrRetry q) := fun h => absurd h Bool.false_ne_true
theorem Encode.tileOpComplete (xk op : Nat) : Encode.Statement (.tileOpComplete xk op) := fun h => absurd h Bool.false_ne_true
theorem Encode.segmentComplete (xk : Nat) : Encode.Statement (.segmentComplete xk) := fun h => absurd h Bool.false_ne_true
theorem Encode.scopeMiss (q : Req) : Encode.Statement (.scopeMiss q) := fun h => absurd h Bool.false_ne_true
theorem Encode.atomicRequest (q : Req) : Encode.Statement (.atomicRequest q) := fun h => absurd h Bool.false_ne_true
theorem Encode.atomicReply (q : Req) (old : W64) (vt flags : Nat) : Encode.Statement (.atomicReply q old vt flags) := fun h => absurd h Bool.false_ne_true
theorem Encode.atomicResend (q : Req) : Encode.Statement (.atomicResend q) := fun h => absurd h Bool.false_ne_true
theorem Encode.lockRequest (q : Req) : Encode.Statement (.lockRequest q) := fun h => absurd h Bool.false_ne_true
theorem Encode.lkqRequest (q : Req) : Encode.Statement (.lkqRequest q) := fun h => absurd h Bool.false_ne_true
theorem Encode.lockTableRetry (q : Req) : Encode.Statement (.lockTableRetry q) := fun h => absurd h Bool.false_ne_true
theorem Encode.enqueued (q : Req) : Encode.Statement (.enqueued q) := fun h => absurd h Bool.false_ne_true
theorem Encode.lkLink (tgt : Waiter) (k : LKey) (w : Waiter) : Encode.Statement (.lkLink tgt k w) := fun h => absurd h Bool.false_ne_true
theorem Encode.grant (tgt : Waiter) (k : LKey) (status : Nat) (data : List Byte) : Encode.Statement (.grant tgt k status data) := fun h => absurd h Bool.false_ne_true
theorem Encode.handoff (k : LKey) (frm new : Waiter) : Encode.Statement (.handoff k frm new) := fun h => absurd h Bool.false_ne_true
theorem Encode.lkRelease (k : LKey) (frm : Waiter) (status : Nat) : Encode.Statement (.lkRelease k frm status) := fun h => absurd h Bool.false_ne_true
theorem Encode.waitlink (tgt : Waiter) (k : LKey) : Encode.Statement (.waitlink tgt k) := fun h => absurd h Bool.false_ne_true
theorem Encode.lkBreak (tgt : Waiter) (k : LKey) : Encode.Statement (.lkBreak tgt k) := fun h => absurd h Bool.false_ne_true
theorem Encode.breakAck (k : LKey) (frm : Waiter) (next : Option Waiter) (released : Bool) : Encode.Statement (.breakAck k frm next released) := fun h => absurd h Bool.false_ne_true
theorem Encode.holdDeadline (k : LKey) (stamp : Nat) : Encode.Statement (.holdDeadline k stamp) := fun h => absurd h Bool.false_ne_true
theorem Encode.lockDeadline (xk eid : Nat) : Encode.Statement (.lockDeadline xk eid) := fun h => absurd h Bool.false_ne_true
theorem Encode.skipTimer (xk eid : Nat) : Encode.Statement (.skipTimer xk eid) := fun h => absurd h Bool.false_ne_true
theorem Encode.probe (q : Req) (hops : Nat) (h : Waiter) (first : Waiter) : Encode.Statement (.probe q hops h first) := fun h => absurd h Bool.false_ne_true
theorem Encode.probeResult (q : Req) (dead : Bool) (hops : Nat) (first : Waiter) : Encode.Statement (.probeResult q dead hops first) := fun h => absurd h Bool.false_ne_true
theorem Encode.deadlockReport (vi : Nat) (line : W64) (xk hops first : Nat) : Encode.Statement (.deadlockReport vi line xk hops first) := fun h => absurd h Bool.false_ne_true
theorem Encode.messageArrival (m : Msg) : Encode.Statement (.messageArrival m) := fun h => absurd h Bool.false_ne_true
theorem Encode.reoffer (m : Msg) : Encode.Statement (.reoffer m) := fun h => absurd h Bool.false_ne_true
theorem Encode.withdraw (m : Msg) : Encode.Statement (.withdraw m) := fun h => absurd h Bool.false_ne_true
theorem Encode.messageAnswer (m : Msg) (ans : Nat) : Encode.Statement (.messageAnswer m ans) := fun h => absurd h Bool.false_ne_true
theorem Encode.handlerRunStart (ck : Nat) : Encode.Statement (.handlerRunStart ck) := fun h => absurd h Bool.false_ne_true
theorem Encode.hbudget (xk : Nat) : Encode.Statement (.hbudget xk) := fun h => absurd h Bool.false_ne_true
theorem Encode.taskArrive (m : Msg) : Encode.Statement (.taskArrive m) := fun h => absurd h Bool.false_ne_true
theorem Encode.taskStart (ck : Nat) : Encode.Statement (.taskStart ck) := fun h => absurd h Bool.false_ne_true
theorem Encode.callatReply (caller : Caller) (cell : W64) (args : List W64) (status : Nat) : Encode.Statement (.callatReply caller cell args status) := fun h => absurd h Bool.false_ne_true
theorem Encode.rwiArrival (q : Req) : Encode.Statement (.rwiArrival q) := fun h => absurd h Bool.false_ne_true
theorem Encode.watchRequest (q : Req) : Encode.Statement (.watchRequest q) := fun h => absurd h Bool.false_ne_true
theorem Encode.watchRetry (q : Req) : Encode.Statement (.watchRetry q) := fun h => absurd h Bool.false_ne_true
theorem Encode.freeze (die : Nat) : Encode.Statement (.freeze die) := fun h => absurd h Bool.false_ne_true
theorem Encode.thaw (die : Nat) : Encode.Statement (.thaw die) := fun h => absurd h Bool.false_ne_true
theorem Encode.evict (die : Nat) : Encode.Statement (.evict die) := fun h => absurd h Bool.false_ne_true
theorem Encode.restore (die : Nat) : Encode.Statement (.restore die) := fun h => absurd h Bool.false_ne_true
theorem Encode.actorResume (die : Nat) : Encode.Statement (.actorResume die) := fun h => absurd h Bool.false_ne_true
theorem Encode.spillReplay (ck mb : Nat) : Encode.Statement (.spillReplay ck mb) := fun h => absurd h Bool.false_ne_true
theorem Encode.idleTimeout (xk stamp : Nat) : Encode.Statement (.idleTimeout xk stamp) := fun h => absurd h Bool.false_ne_true
theorem Encode.yieldExpiry (xk stamp : Nat) : Encode.Statement (.yieldExpiry xk stamp) := fun h => absurd h Bool.false_ne_true
theorem Encode.gtwaitExpiry (xk stamp : Nat) : Encode.Statement (.gtwaitExpiry xk stamp) := fun h => absurd h Bool.false_ne_true
theorem Encode.claimRequest (q : Req) : Encode.Statement (.claimRequest q) := fun h => absurd h Bool.false_ne_true
theorem Encode.claimAnswer (q : Req) (ans : ClaimAns) : Encode.Statement (.claimAnswer q ans) := fun h => absurd h Bool.false_ne_true
theorem Encode.claimRetry (q : Req) : Encode.Statement (.claimRetry q) := fun h => absurd h Bool.false_ne_true
theorem Encode.winNotice (u : URef) : Encode.Statement (.winNotice u) := fun h => absurd h Bool.false_ne_true
theorem Encode.commitBusyRetry (q : Req) : Encode.Statement (.commitBusyRetry q) := fun h => absurd h Bool.false_ne_true
theorem Encode.streamLine (q : Req) (refused : Bool) : Encode.Statement (.streamLine q refused) := fun h => absurd h Bool.false_ne_true
theorem Encode.publish (q : Req) : Encode.Statement (.publish q) := fun h => absurd h Bool.false_ne_true
theorem Encode.groupClaim (q : Req) : Encode.Statement (.groupClaim q) := fun h => absurd h Bool.false_ne_true
theorem Encode.claimRelease (q : Req) : Encode.Statement (.claimRelease q) := fun h => absurd h Bool.false_ne_true
theorem Encode.cancelCopy (xk reason : Nat) (u : Option URef) : Encode.Statement (.cancelCopy xk reason u) := fun h => absurd h Bool.false_ne_true
theorem Encode.rowpwr (row : Nat) (value : W64) : Encode.Statement (.rowpwr row value) := fun h => absurd h Bool.false_ne_true
theorem Encode.corepwr (pcore : Nat) (value : W64) : Encode.Statement (.corepwr pcore value) := fun h => absurd h Bool.false_ne_true
theorem Encode.voltageStep (row : Nat) : Encode.Statement (.voltageStep row) := fun h => absurd h Bool.false_ne_true
theorem Encode.clockHop (pcore : Nat) : Encode.Statement (.clockHop pcore) := fun h => absurd h Bool.false_ne_true
theorem Encode.droop (row : Nat) : Encode.Statement (.droop row) := fun h => absurd h Bool.false_ne_true
theorem Encode.rampStep : Encode.Statement .rampStep := fun h => absurd h Bool.false_ne_true
theorem Encode.controlInterval : Encode.Statement .controlInterval := fun h => absurd h Bool.false_ne_true
theorem Encode.fabpwrStagger (value : W64) : Encode.Statement (.fabpwrStagger value) := fun h => absurd h Bool.false_ne_true
theorem Encode.fabpwrSlow (value : W64) : Encode.Statement (.fabpwrSlow value) := fun h => absurd h Bool.false_ne_true
theorem Encode.stagger (nslot slotw : Nat) : Encode.Statement (.stagger nslot slotw) := fun h => absurd h Bool.false_ne_true
theorem Encode.slow (floor intervals : Nat) : Encode.Statement (.slow floor intervals) := fun h => absurd h Bool.false_ne_true
theorem Encode.supplyEmergency : Encode.Statement .supplyEmergency := fun h => absurd h Bool.false_ne_true
theorem Encode.emerg (value : W64) : Encode.Statement (.emerg value) := fun h => absurd h Bool.false_ne_true
theorem Encode.tantalumBoot (manifest : Manifest) (flash : List (Option (List Byte))) : Encode.Statement (.tantalumBoot manifest flash) := fun h => absurd h Bool.false_ne_true
theorem Encode.portTraining (port lanes : Nat) : Encode.Statement (.portTraining port lanes) := fun h => absurd h Bool.false_ne_true
theorem Encode.nak (port : Nat) : Encode.Statement (.nak port) := fun h => absurd h Bool.false_ne_true
theorem Encode.linkAck (port upto : Nat) : Encode.Statement (.linkAck port upto) := fun h => absurd h Bool.false_ne_true
theorem Encode.permitReturn (port cls vi n : Nat) (shared : Bool) : Encode.Statement (.permitReturn port cls vi n shared) := fun h => absurd h Bool.false_ne_true
theorem Encode.portDown (port : Nat) : Encode.Statement (.portDown port) := fun h => absurd h Bool.false_ne_true
theorem Encode.keyRollover (port : PortDir) : Encode.Statement (.keyRollover port) := fun h => absurd h Bool.false_ne_true
theorem Encode.keydone (port : Nat) : Encode.Statement (.keydone port) := fun h => absurd h Bool.false_ne_true
theorem Encode.keyack (port : Nat) : Encode.Statement (.keyack port) := fun h => absurd h Bool.false_ne_true
theorem Encode.getVersion (requester : Nat) : Encode.Statement (.getVersion requester) := fun h => absurd h Bool.false_ne_true
theorem Encode.getCapabilities (requester : Nat) : Encode.Statement (.getCapabilities requester) := fun h => absurd h Bool.false_ne_true
theorem Encode.negotiateAlgorithms (requester : Nat) : Encode.Statement (.negotiateAlgorithms requester) := fun h => absurd h Bool.false_ne_true
theorem Encode.getDigests (requester : Nat) : Encode.Statement (.getDigests requester) := fun h => absurd h Bool.false_ne_true
theorem Encode.getCertificate (requester : Nat) : Encode.Statement (.getCertificate requester) := fun h => absurd h Bool.false_ne_true
theorem Encode.challenge (requester : Nat) : Encode.Statement (.challenge requester) := fun h => absurd h Bool.false_ne_true
theorem Encode.getMeasurements (requester : Nat) (index : Nat) : Encode.Statement (.getMeasurements requester index) := fun h => absurd h Bool.false_ne_true
theorem Encode.keyExchange (requester : Nat) : Encode.Statement (.keyExchange requester) := fun h => absurd h Bool.false_ne_true
theorem Encode.finish (requester : Nat) : Encode.Statement (.finish requester) := fun h => absurd h Bool.false_ne_true
theorem Encode.endSession (requester : Nat) : Encode.Statement (.endSession requester) := fun h => absurd h Bool.false_ne_true
theorem Encode.fatalError (cls dies : Nat) : Encode.Statement (.fatalError cls dies) := fun h => absurd h Bool.false_ne_true
theorem Encode.registerWrite (offset : Nat) (value : W64) : Encode.Statement (.registerWrite offset value) := fun h => absurd h Bool.false_ne_true
theorem Encode.ill (w : Word) : Encode.Statement (.ill w) := fun h => absurd h Bool.false_ne_true
theorem Encode.fetchFault (code : Nat) (tval : W64) : Encode.Statement (.fetchFault code tval) := fun h => absurd h Bool.false_ne_true
theorem Encode.badop (queue : Nat) : Encode.Statement (.badop queue) := fun h => absurd h Bool.false_ne_true
theorem Encode.mcheck (xk : Nat) : Encode.Statement (.mcheck xk) := fun h => absurd h Bool.false_ne_true
theorem Encode.voltageRecovered (row : Nat) : Encode.Statement (.voltageRecovered row) := fun h => absurd h Bool.false_ne_true
theorem Encode.emergencyCleared : Encode.Statement .emergencyCleared := fun h => absurd h Bool.false_ne_true

end Sys2Proof.Laws
end

