-- ==== Sys2Proof/Tests/Slice0.lean ====
section
/-! SUPPORT. Tests: words written out field by field from the opcode map (R109 to R122), the spec's own examples of encodings, the terms that
WellFormed refuses, and witnesses of the hypotheses of every statement. -/
namespace Sys2Proof.Tests
open Sys2Proof Sys2Proof.Machine
set_option Elab.async false

/-! ### Decoding: each word is its major opcode, the fields of its format and its fn, all other bits 0 -/

/-- Each word decodes to its instruction. -/
def reads (l : List (Word × Instr)) : Bool := l.all fun p => decode p.1 == some p.2
theorem test_decode_integer_1 : reads
    [(0x04221800, .add 1 2 3), (0x04221801, .sub 1 2 3), (0x04221802, .and 1 2 3), (0x04221803, .andn 1 2 3), (0x04221804, .or 1 2 3),
     (0x04221805, .xor 1 2 3), (0x04221806, .sll 1 2 3), (0x04221807, .srl 1 2 3), (0x04221808, .sra 1 2 3), (0x04221809, .mul 1 2 3)] = true := by decide +kernel
theorem test_decode_integer_2 : reads
    [(0x0422180A, .mulh 1 2 3), (0x0422180B, .mulhn 1 2 3), (0x0422180C, .div 1 2 3), (0x0422180D, .divn 1 2 3), (0x0422180E, .rem 1 2 3),
     (0x0422180F, .remn 1 2 3), (0x04221810, .min 1 2 3), (0x04221811, .max 1 2 3), (0x04221812, .minn 1 2 3), (0x04221813, .maxn 1 2 3)] = true := by decide +kernel
theorem test_decode_integer_3 : reads
    [(0x04221814, .slt 1 2 3), (0x04221815, .sltn 1 2 3), (0x04221816, .seq 1 2 3), (0x04220017, .clz 1 2), (0x04220018, .ctz 1 2),
     (0x04220019, .popc 1 2), (0x0422181A, .bext 1 2 3), (0x0422181B, .bins 1 2 3), (0x08228003, .addi 1 2 32771),
     (0x0C228003, .andi 1 2 32771)] = true := by decide +kernel
theorem test_decode_integer_4 : reads
    [(0x10228003, .ori 1 2 32771), (0x14228003, .xori 1 2 32771), (0x18228003, .slti 1 2 32771), (0x1C228003, .sltin 1 2 32771),
     (0x20220021, .slli 1 2 33), (0x24220021, .srli 1 2 33), (0x28220021, .srai 1 2 33), (0x2C208003, .lui 1 32771),
     (0x30208003, .apc 1 32771)] = true := by decide +kernel
theorem test_decode_jump : reads
    [(0x403FFFF0, .jal 1 2097136), (0x44228003, .jalr 1 2 32771), (0x48228003, .beq 1 2 32771), (0x4C228003, .bne 1 2 32771),
     (0x50228003, .blt 1 2 32771), (0x54228003, .bge 1 2 32771), (0x58228003, .bltn 1 2 32771), (0x5C228003, .bgen 1 2 32771)] = true := by decide +kernel
theorem test_decode_memory_1 : reads
    [(0x6022FFC0, .lb 1 2 8184), (0x6022FFC1, .lbn 1 2 8184), (0x6022FFC2, .lh 1 2 8184), (0x6022FFC3, .lhn 1 2 8184),
     (0x6022FFC4, .lw 1 2 8184), (0x6022FFC5, .lwn 1 2 8184), (0x6022FFC6, .ld 1 2 8184), (0x6422FFC0, .sb 1 2 8184),
     (0x6422FFC1, .sh 1 2 8184), (0x6422FFC2, .sw 1 2 8184)] = true := by decide +kernel
theorem test_decode_memory_2 : reads
    [(0x6422FFC3, .sd 1 2 8184), (0x68221800, .stv 1 2 3), (0x68010001, .pref 1), (0x68010002, .l1wb 1), (0x68010003, .l1inv 1),
     (0x68221804, .hnew 1 2 3), (0x68221805, .hgive 1 2 3), (0x68010006, .hrev 1), (0x68220007, .hchk 1 2)] = true := by decide +kernel
theorem test_decode_float_1 : reads
    [(0x80221810, .fadd 1 2 3 1), (0x80221811, .fsub 1 2 3 1), (0x80221812, .fmul 1 2 3 1), (0x80221813, .ffma 1 2 3 1),
     (0x80221814, .ffms 1 2 3 1), (0x80221815, .fdiv 1 2 3 1), (0x80220016, .fsqrt 1 2 1), (0x80221817, .fmin 1 2 3 1),
     (0x80221818, .fmax 1 2 3 1), (0x80221819, .fceq 1 2 3 1)] = true := by decide +kernel
theorem test_decode_float_2 : reads
    [(0x8022181A, .fclt 1 2 3 1), (0x8022181B, .fcle 1 2 3 1), (0x8022081C, .fcvt 1 2 1 1), (0x8022001D, .fclass 1 2 1)] = true := by decide +kernel
theorem test_decode_vector_1 : reads
    [(0xA0221D10, .vadd 1 2 3 5 1), (0xA0221D11, .vsub 1 2 3 5 1), (0xA0221D12, .vmul 1 2 3 5 1), (0xA0221D13, .vfma 1 2 3 5 1),
     (0xA0221D14, .vfms 1 2 3 5 1), (0xA0221D15, .vmin 1 2 3 5 1), (0xA0221D16, .vmax 1 2 3 5 1), (0xA0220517, .vabs 1 2 5 1),
     (0xA0220518, .vneg 1 2 5 1), (0xA0221D19, .vand 1 2 3 5 1)] = true := by decide +kernel
theorem test_decode_vector_2 : reads
    [(0xA0221D1A, .vor 1 2 3 5 1), (0xA0221D1B, .vxor 1 2 3 5 1), (0xA0221D8C, .vsll 1 2 3 5 8), (0xA0221D8D, .vsrl 1 2 3 5 8),
     (0xA0221D8E, .vsra 1 2 3 5 8), (0xA4221D10, .vcmpeq 1 2 3 5 1), (0xA4221D11, .vcmplt 1 2 3 5 1), (0xA4221D12, .vcmple 1 2 3 5 1),
     (0xA4221D13, .vsel 1 2 3 5 1), (0xA4220514, .vredadd 1 2 5 1)] = true := by decide +kernel
theorem test_decode_vector_3 : reads
    [(0xA4220515, .vredmax 1 2 5 1), (0xA4220516, .vredmin 1 2 5 1), (0xA4220517, .vamax 1 2 5 1), (0xA8220D10, .vcvt 1 2 1 5 1),
     (0xA8221D51, .vqnt 1 2 3 5 5), (0xA8221D52, .vdqnt 1 2 3 5 5), (0xA8220513, .vexp2 1 2 5 1), (0xA8220514, .vlog2 1 2 5 1),
     (0xA8220515, .vrcp 1 2 5 1), (0xA8220516, .vrsq 1 2 5 1)] = true := by decide +kernel
theorem test_decode_vector_4 : reads
    [(0xAC221D10, .vperm 1 2 3 5 1), (0xAC221D11, .vshuf 1 2 3 5 1), (0xAC220512, .vbcast 1 2 5 1), (0xAC221813, .vext 1 2 3 1),
     (0xAC221814, .vins 1 2 3 1), (0xB0220510, .vld 1 2 5 1), (0xB0220511, .vst 1 2 5 1), (0xB0221D12, .vlds 1 2 3 5 1),
     (0xB0221D13, .vsts 1 2 3 5 1), (0xB0221D14, .vgth 1 2 3 5 1)] = true := by decide +kernel
theorem test_decode_vector_5 : reads
    [(0xB0221D15, .vsct 1 2 3 5 1), (0xB4221800, .kand 1 2 3), (0xB4221801, .kor 1 2 3), (0xB4220002, .knot 1 2), (0xB4220003, .kmov 1 2),
     (0xB4220013, .kmovFromX 1 2), (0xB4220023, .kmovToX 1 2)] = true := by decide +kernel
theorem test_decode_matrix_1 : reads
    [(0xC0800000, .macq 1), (0xC0800001, .mrel 1), (0xC0802002, .mld 1 2), (0xC0802003, .mst 1 2), (0xC0800004, .mzero 1),
     (0xC0A60005, .mma 1 2 3), (0xC0A60806, .mmas 1 2 3 4), (0xC0A60007, .madd 1 2 3), (0xC0A03008, .mscl 1 2 3), (0xC0A00009, .mcvt 1 2)] = true := by decide +kernel
theorem test_decode_matrix_2 : reads
    [(0xC0A0000A, .mtrn 1 2), (0xC000140B, .mgeo 1 2)] = true := by decide +kernel
theorem test_decode_engine : reads
    [(0xD0000804, .cpstat 1 2), (0xD0010800, .cpkill 1), (0xD0800880, .mkfull 1 2), (0xD0810880, .mkempty 1 2), (0xD0820804, .festat 1 2),
     (0xD0830880, .waddr 1 2), (0xD1010880, .loop 1 1 2)] = true := by decide +kernel
theorem test_decode_control_register : reads
    [(0xD801000D, .mtc 1 13), (0xDC20000D, .mfc 1 13), (0xDC20002A, .cpgo 1)] = true := by decide +kernel
theorem test_decode_sync : reads
    [(0xE00000A0, .fence 1 1), (0xE0220081, .ldacq 1 2 1), (0xE0011082, .strel 1 2 1), (0xE0010003, .gtwait 1)] = true := by decide +kernel
theorem test_decode_atomic_1 : reads
    [(0xE4221820, .amadd 1 2 3 1), (0xE4221821, .amand 1 2 3 1), (0xE4221822, .amor 1 2 3 1), (0xE4221823, .amxor 1 2 3 1),
     (0xE4221824, .ammin 1 2 3 1), (0xE4221825, .ammax 1 2 3 1), (0xE4221826, .amminn 1 2 3 1), (0xE4221827, .ammaxn 1 2 3 1),
     (0xE4221828, .amswp 1 2 3 1), (0xE4221829, .amcas 1 2 3 1)] = true := by decide +kernel
theorem test_decode_atomic_2 : reads
    [(0xE422180A, .amfadd 1 2 3), (0xE422180B, .amdadd 1 2 3)] = true := by decide +kernel
theorem test_decode_lock : reads
    [(0xE8221800, .lock 1 2 3), (0xE8010001, .unlock 1), (0xE8220002, .lktry 1 2), (0xE8220003, .lkq 1 2)] = true := by decide +kernel
theorem test_decode_wait : reads
    [(0xEC444440, .wait 1 1 1 1 1)] = true := by decide +kernel
theorem test_decode_message_1 : reads
    [(0xF0011000, .send 1 2), (0xF0221801, .sendn 1 2 3), (0xF0221802, .callat 1 2 3), (0xF0011003, .rwi 1 2), (0xF0221804, .arm 1 2 3),
     (0xF0010005, .disarm 1), (0xF0221806, .watch 1 2 3), (0xF0221807, .rewatch 1 2 3), (0xF0221808, .apin 1 2 3), (0xF0010009, .aunpin 1)] = true := by decide +kernel
theorem test_decode_message_2 : reads
    [(0xF001100A, .hmsg 1 2)] = true := by decide +kernel
theorem test_decode_commit : reads
    [(0xF4221800, .commit 1 2 3), (0xF4200001, .seal 1), (0xF4220002, .claimq 1 2), (0xF4221803, .rpin 1 2 3), (0xF4010004, .runpin 1),
     (0xF4221805, .wkq 1 2 3), (0xF4221806, .wkcan 1 2 3), (0xF4000007, .done)] = true := by decide +kernel
theorem test_decode_system : reads
    [(0xF8000420, .trap 33), (0xF8000001, .eret), (0xF8000002, .idle), (0xF8000423, .brk 33), (0xF8011004, .tlbinv 1 2),
     (0xF8010005, .ctxsv 1), (0xF8010006, .ctxld 1), (0xF8010007, .fltack 1), (0xF8000008, .yield)] = true := by decide +kernel
theorem test_decode_fmt : reads
    [(0xFC454000, .fmt 1 1 1 1)] = true := by decide +kernel
/-- Words that the spec itself writes beside their assembly form. -/
theorem test_decode_spec_examples_1 : reads
    [(0x04C67000, .add 6 6 14), (0x04642801, .sub 3 4 5), (0x04E8480C, .div 7 8 9), (0x04430017, .clz 2 3), (0x0485301B, .bins 4 5 6),
     (0x20A5003F, .slli 5 5 63), (0x40200010, .jal 1 16), (0x44010000, .jalr 0 1 0), (0x49260004, .beq 9 6 4), (0x512FFFF7, .blt 9 15 (-9)),
     (0x60E9FFC4, .lw 7 9 (-8)), (0x64620062, .sw 3 2 12), (0x68862800, .stv 4 6 5), (0x68E50007, .hchk 7 5)] = true := by decide +kernel
theorem test_decode_spec_examples_2 : reads
    [(0x80642810, .fadd 3 4 5 1), (0x80A70019, .fceq 5 7 0 1), (0x81663815, .fdiv 11 6 7 1), (0x812A0016, .fsqrt 9 10 1), (0xA4432181, .vcmplt 2 3 4 1 8),
     (0xA0211002, .vmul 1 1 2 0 0), (0xA9090020, .vcvt 8 9 0 0 2), (0xB0A63804, .vgth 5 6 7 0 0), (0xB4221800, .kand 1 2 3), (0xB4290013, .kmovFromX 1 9)] = true := by
  decide +kernel
theorem test_decode_spec_examples_3 : reads
    [(0xC0140606, .mmas 0 1 2 3), (0xC000540B, .mgeo 5 2), (0xC080A002, .mld 1 10), (0xC24A0007, .madd 4 4 5), (0xD0018000, .cpkill 16), (0xD08041C0, .mkfull 8 7),
     (0xD0836800, .waddr 13 0), (0xD0008024, .cpstat 16 18), (0xD805000D, .mtc 5 13), (0xDCE0002A, .cpgo 7), (0xE00003A0, .fence 7 1), (0xE0A60381, .ldacq 5 6 7),
     (0xE0062A82, .strel 6 5 5), (0xE0040003, .gtwait 4)] = true := by decide +kernel
theorem test_decode_spec_examples_4 : reads
    [(0xE4A73000, .amadd 5 7 6 0), (0xE4A73029, .amcas 5 7 6 1), (0xE8A63800, .lock 5 6 7), (0xEC3C03C0, .wait 0 15 0 0 15), (0xF0E53001, .sendn 7 5 6),
     (0xF2853002, .callat 20 5 6), (0xF4A63800, .commit 5 6 7), (0xF4000007, .done), (0xF80000A0, .trap 5), (0xF8000023, .brk 1), (0xF8053004, .tlbinv 5 6),
     (0xFD104000, .fmt 4 4 0 1)] = true := by decide +kernel
/-- Words that trap ILL: major 0, unassigned majors and fn values, a bit that the form does not use, and illegal field values (R108, R111). -/
theorem test_decode_refuses : ([0, 0x34000000, 0xFFFFFFFF, 0x0400001C, 0x04430817, 0x20A50040, 0x28000F00, 0xA02210E2, 0xEC3C03C1, 0xF8000009, 0xFF804000, 0xE0000380, 0xE0000620,
    0xD8050018, 0xB5090013] : List Word).all (fun w => (decode w).isNone) = true := by decide +kernel

/-! ### WellFormed: one term for each check, which the check refuses -/

theorem test_wf_types : ([.fcvt 1 2 14 0, .vadd 1 2 3 0 4, .vfma 1 2 3 0 6, .vabs 1 2 0 10, .vand 1 2 3 0 14, .vsll 1 2 3 0 0, .vsra 1 2 3 0 10, .vqnt 1 2 3 0 7,
    .vredadd 1 2 0 5, .vamax 1 2 0 8, .fmt 14 0 0 0, .fmt 0 15 0 0] : List Instr).all (fun i => !i.wf) = true := by decide +kernel
theorem test_wf_registers_and_codes : ([.vcmpeq 8 1 2 0 0, .kand 8 1 2, .kand 1 8 2, .kand 1 2 8, .kmovFromX 8 1, .kmovToX 1 8, .mgeo 5 6, .mtc 1 0x018, .mfc 1 0x02B,
    .mtc 1 0x02A, .fence 12 1, .fence 7 0, .ldacq 1 2 12, .strel 1 2 15, .fmt 0 0 0 2] : List Instr).all (fun i => !i.wf) = true := by decide +kernel
theorem test_wf_event_numbers : ([.upcall 49152, .notice 6144 1 false, .fback 8 0, .halt 0 768 0, .halt 0 0 8, .victl 64 0, .qtail 4096 0, .tailw 0 4096 0, .placementDecision 8] :
    List Instr).all (fun i => !i.wf) = true := by decide +kernel

/-! ### Witnesses: for every statement with hypotheses, states and operands that meet them, clause by clause. Each theorem is named
`witness_<statement>`; what it states are the hypotheses of that statement, on small states built by `world` -/

set_option synthInstance.maxSize 2000
set_option synthInstance.maxHeartbeats 200000
set_option maxRecDepth 4000
/-- The word in memory from an address of a list of words. -/
def cells (l : List (Nat × Nat)) : Mem := l.foldl (fun m p => m.puts p.1 (leBytes 8 p.2)) {}
/-- Global address of the first page, of code, and of the second, of data. -/
def G : W64 := 0x8000000000000
def D : W64 := 0x8000000010000
/-- Tables that map page G to 0x20000 (R, X) and page D to 0x30000 (R, W). -/
def pages : List (Nat × Nat) := codeTables ++ [(0x1C010, 0x3001D), (0x1C018, 2 ^ 33 + 1)]
/-- A context at G with a vector for its traps and a run of 64 KiB. -/
def ctx0 : Ctx := { st := .ready, pc := G, trapvec := G + 0x1000, runLen := 0x10000 }
/-- A released package at GTIME 1000 in which context 0 of core 0 issues, with interface 0 enabled. -/
def world (x : Ctx) (f : Chip → Chip := id) (l : List (Nat × Nat) := []) : State :=
  { mem := cells (pages ++ l), now := 1000
    chip := f { ctxs := [(0, x)], vis := [(0, { en := true, quiesced := false, pten := true, ptbase := 0x10000 })], tan := { stage := 3 } } }
/-- `canRun` as a check. -/
def runs (s : State) (pfx : Bool) (u : Use) : Bool :=
  s.chip.wr.isEmpty && (s.cx.fmt.isNone || (pfx && s.cx.fmt.any fmtLegal)) && !s.cx.blocked u && (!u.mem || !s.cx.acquiring) &&
    (decide (u.ctr = .none) || decide (s.cx.cnt u.ctr < 63))
theorem canRun_of {s : State} {pfx : Bool} {u : Use} (h : runs s pfx u = true) : s.canRun pfx u := by
  simp only [runs, Bool.and_eq_true, Bool.or_eq_true, Bool.not_eq_true', decide_eq_true_eq, List.isEmpty_iff] at h
  obtain ⟨⟨⟨⟨h1, h2⟩, h3⟩, h4⟩, h5⟩ := h
  refine ⟨h1, ?_, h3, fun m => ?_, h5⟩
  · cases e : s.cx.fmt with
    | none => exact .inl rfl
    | some w => rw [e] at h2; simp at h2; exact .inr ⟨h2.1, w, rfl, h2.2⟩
  · rcases h4 with h | h
    · rw [m] at h; cases h
    · exact h
/-- `nextOk` as a check. -/
def next (s : State) : Bool := (s.cx.nextPc s.cx.pc).2.toNat % 4 == 0
theorem nextOk_of {s : State} (h : next s = true) : s.nextOk := by simpa [next, State.nextOk] using h
/-- The plain world. -/
def w0 : State := world ctx0
/-- The context of a word that the prefix FMT (2, 3, RUP, SAT) precedes. -/
def ctxF : Ctx := { ctx0 with fmt := some (encode (.fmt 2 3 3 1)) }
/-- What fetch answers: a word (0), a fault with its code (1), a page being reclassified (2). -/
def fetchTag (f : Fetched) : Nat × Nat := match f with | .word w _ => (0, w.toNat) | .fault code _ _ => (1, code) | .hold _ => (2, 0)
/-- The same of a step's fetch for context 0. -/
def fetches (s : State) : Nat × Nat := fetchTag (fetch s.env ((s.chip.startIssue s.now 0).noteDids s.now [ownDid 0]) 0)
/-- The world of a step that issues the word `w`, changed. -/
def wStep (w : Nat) (f : State → State := id) : State := f (State.reset.withFetchWord 32 w)
/-- A translation's outcome: done (0) with the home and physical address, to hold (1), or a fault with its code (2). -/
def transTag (t : Trans) : Nat × Nat × Nat := match t with | .ok _ h pa .. => (0, h, pa) | .hold .. => (1, 0, 0) | .fault code _ => (2, code, 0)

theorem witness_DecodeOfEncode : (Instr.add 1 2 3).isWord = true ∧ (Instr.add 1 2 3).wf = true ∧ (Instr.sw 31 31 8191).isWord = true ∧ (Instr.sw 31 31 8191).wf = true := by
  decide +kernel
theorem witness_StepRunsDecodedInstruction :
    let issues (s : State) : Prop := s.chip.tan.stage = 3 ∧ s.chip.choose s.env = some (.issue 0)
    let a := wStep 0x04221800
    let b := wStep 0
    let c := wStep 0 fun t => { t with chip := { t.chip with vis := [] } }
    let d := wStep 0 fun t => { t with mem := t.mem.puts 0x1C008 (leBytes 8 (2 ^ 32 + 5 * 2 ^ 34 + 1)) }
    (issues a ∧ a.chip.stopped = false ∧ fetches a = (0, 0x04221800) ∧ decode 0x04221800 = some (.add 1 2 3)) ∧ (issues b ∧ b.chip.stopped = false ∧ fetches b = (0, 0) ∧ decode 0 = none) ∧
    (issues c ∧ c.chip.stopped = false ∧ fetches c = (1, 0x08)) ∧ (issues d ∧ d.chip.stopped = false ∧ fetches d = (2, 0)) ∧
    (let t := wStep 0 fun t => { t with chip := { t.chip with stopped := true } }
     issues t ∧ t.chip.stopped = true) := by
  decide +kernel
theorem witness_StepKeepsInv : (wStep 0x04221800).mem.wf = true ∧ (wStep 0x04221800).chip.wr = [] ∧ (match step (wStep 0x04221800) with | .next _ => true | _ => false) = true := by
  decide +kernel
theorem witness_EveryStepHasANextState : State.reset.chip.stopped = false := by decide +kernel
theorem witness_FetchReadsTheWordAtThePC :
    let t (x : Ctx) (f : Chip → Chip := id) (l : List (Nat × Nat) := []) : Nat × Nat × Nat := let s := world x f l
      transTag (xlate s.env s.chip x.vi x.pc 2 (some 0) (some 0) false)
    (({ ctx0 with st := .stall, word := some 5 } : Ctx).st = .stall ∧ ctx0.word = none) ∧ (G.toNat / 2 ^ 52 = 0 ∧ G.toNat / 2 ^ 50 % 4 = 2 ∧ G.toNat % 4 = 0 ∧ (G + 2).toNat % 4 ≠ 0) ∧
    (0x4000000000000 : W64).toNat / 2 ^ 50 % 4 ≠ 2 ∧ t ctx0 = (0, hash21 0 * 0 + (t ctx0).2.1, 0x20000) ∧ t { ctx0 with vi := 1 } = (2, 0x08, 0) ∧ t { ctx0 with pc := D } = (2, 0x09, 0) ∧
    t ctx0 id [(0x1C008, 2 ^ 32 + 5 * 2 ^ 34 + 1)] = (1, 0, 0) ∧ (world ctx0).chip.badAt 0x20000 4 = false ∧ (world ctx0 fun c => { c with bad := [0x400] }).chip.badAt 0x20000 4 = true ∧
    ((world ctx0).chip.core 0).l1 = [] ∧ (world ctx0).chip.net = [] ∧ (world ctx0).chip.tags = [] ∧ ctx0.kept = [] := by
  decide +kernel
theorem witness_TakingATrap : (0x1F : Nat) < 256 ∧ G.toNat % 4 = 0 ∧ ctxF.fmt = some (encode (.fmt 2 3 3 1)) ∧ ctx0.fmt = none ∧ ctx0.trapvec ≠ 0 ∧
    ({ ctx0 with trapvec := 0 } : Ctx).trapvec = 0 ∧ ctx0.ldPC = none := by
  decide +kernel
/-- A context with an outstanding load of x3, and one with as many loads as the counter holds. -/
def ctxL : Ctx := { ctx0 with ops := [{ id := 9, kind := .load, ctr := .ld, dst := .x 3 8 false }] }
def ctxFull : Ctx := { ctx0 with ops := (List.range 63).map fun i => { id := i, kind := .load, ctr := .ld } }
def ctxTile : Ctx := { ctx0 with ops := [{ id := 9, kind := .mld, ctr := .mx, dst := .m 2 }] }
theorem witness_ChecksBeforeEffect :
    (Instr.add 1 2 3).isWord = true ∧ w0.chip.wr = [] ∧ fmtLegal 0x04221800 = false ∧ (world { ctx0 with fmt := some 0x04221800 }).cx.fmt = some 0x04221800 ∧
    (Instr.eret).isWord = true ∧ (Instr.eret).privileged = true ∧ w0.cx.priv = false ∧ w0.cx.fmt = none ∧ (world ctxF).cx.fmt = some (encode (.fmt 2 3 3 1)) ∧
    fmtLegal (encode (.fmt 2 3 3 1)) = true ∧ (Instr.add 1 2 3).takesPrefix = false ∧ (Instr.add 1 2 3).privileged = false ∧ (world { ctxF with priv := true }).cx.priv = true ∧
    (world ctxL).cx.fmt = none ∧ (world ctxL).cx.acquiring = false ∧ (world ctxL).cx.blocked { x := [1, 3, 2] } = true ∧ (world ctxTile).cx.blocked { wm := [2] } = true ∧
    (world ctxFull).cx.fmt = none ∧ (world ctxFull).cx.acquiring = false ∧ (world ctxFull).cx.blocked { x := [1, 2], ctr := .ld, mem := true } = false ∧ (world ctxFull).cx.cnt .ld = 63 := by
  decide +kernel
theorem witness_IntegerRegisterResults : w0.canRun false { x := [31, 0, 31] } ∧ w0.nextOk := ⟨canRun_of (by decide +kernel), nextOk_of (by decide +kernel)⟩
/-- Registers for the corners of division. -/
def wDiv : State := world { ctx0 with x := [(1, 7), (2, 0), (3, 0x8000000000000000), (4, 0xFFFFFFFFFFFFFFFF)] }
theorem witness_DivisionAndBitFields : (wDiv.canRun false { x := [5, 1, 2] } ∧ wDiv.canRun false { x := [5, 3, 4] } ∧ wDiv.canRun false { x := [5, 3, 1] } ∧ wDiv.nextOk) ∧
    wDiv.cx.getX 2 = 0 ∧ wDiv.cx.getX 1 ≠ 0 ∧ (wDiv.cx.getX 3).toInt = -2 ^ 63 ∧ (wDiv.cx.getX 4).toInt = -1 ∧ (wDiv.cx.getX 1).toInt ≠ -1 :=
  ⟨⟨canRun_of (by decide +kernel), canRun_of (by decide +kernel), canRun_of (by decide +kernel), nextOk_of (by decide +kernel)⟩, by decide +kernel⟩
theorem witness_ImmediateResults : w0.canRun false { x := [0, 31] } ∧ w0.nextOk := ⟨canRun_of (by decide +kernel), nextOk_of (by decide +kernel)⟩
theorem witness_RegisterReadAfterWrite : (31 : Nat) ≠ 0 ∧ (0 : Nat) ≠ 31 := by decide
theorem witness_JumpsAndBranches : (wDiv.canRun false { x := [0, 1, 1] } ∧ wDiv.canRun false { x := [31, 3, 4] } ∧ wDiv.nextOk) ∧
    (let u := wDiv.cx.getX 1
     let v := wDiv.cx.getX 3
     let w := wDiv.cx.getX 4
     (u + (1 : BitVec 16).signExtend 64).toNat % 4 = 0 ∧ (u + (0 : BitVec 16).signExtend 64).toNat % 4 ≠ 0 ∧ u = u ∧ u ≠ v ∧ v.toInt < w.toInt ∧ v.toNat < w.toNat ∧ ¬ w.toInt < v.toInt) :=
  ⟨⟨canRun_of (by decide +kernel), canRun_of (by decide +kernel), nextOk_of (by decide +kernel)⟩, by decide +kernel⟩
/-- A FEED unit, with 1 and 65,536 in x1 and x2; and one in two nested loops that end at G. -/
def ctxFeed : Ctx := { ctx0 with feed := true, x := [(1, 1), (2, 65536), (3, 65537)] }
def ctxLoop : Ctx := { ctxFeed with lps := [(0, G), (1, G)], lpe := [(0, G), (1, G)], lpc := [(0, 3), (1, 1)] }
theorem witness_LoopsEnterAndRepeat : ((world ctxFeed).canRun false { x := [0, 2] } ∧ w0.canRun false { x := [1, 2] }) ∧
    w0.cx.feed = false ∧ (world ctxFeed).cx.feed = true ∧ ((world ctxFeed).cx.getX 0).toNat = 0 ∧ ((world ctxFeed).cx.getX 1).toNat = 1 ∧ ((world ctxFeed).cx.getX 2).toNat = 65536 ∧
    65536 < ((world ctxFeed).cx.getX 3).toNat ∧ (∀ n < 4, (world ctxFeed).cx.lpc.get 0 n = 0) ∧ (world ctxFeed).cx.pc.toNat % 4 = 0 ∧ (world ctxFeed).cx.getX 1 ≠ 0 ∧
    ctxLoop.noLoops = false ∧ ctxLoop.lpc.get 0 1 = 1 ∧ ctxLoop.lpe.get 0 1 = G ∧
    (let x : Ctx := { ctxLoop with lpc := [(0, 3)] }
     x.noLoops = false ∧ x.lpc.get 0 0 ≠ 0 ∧ x.lpe.get 0 0 = G ∧ (∀ m < 4, 0 < m → x.lpc.get 0 m ≠ 0 → x.lpe.get 0 m ≠ G) ∧ 1 < (x.lpc.get 0 0).toNat ∧
       ∀ n < 4, x.lpc.get 0 n ≠ 0 → x.lpe.get 0 n ≠ G + 4) ∧
    (let x : Ctx := { ctxLoop with lpc := [(1, 1)] }
     x.lpc.get 0 1 = 1 ∧ x.lpe.get 0 1 = G ∧ ∀ m < 4, m ≠ 1 → x.lpc.get 0 m = 0) :=
  ⟨⟨canRun_of (by decide +kernel), canRun_of (by decide +kernel)⟩, by decide +kernel⟩
theorem witness_FloatSpecialCasesAndRounding : (1 : Nat) < 2 ∧ (unpack 0 0x7FC00000).isNaN = true ∧ (unpack 0 0x3F800000).isNaN = false ∧ unpack 0 0x7F800000 = .inf false ∧
    unpack 0 0xFF800000 = .inf true ∧ (unpack 0 0).isZero = true ∧ (match unpack 0 0xBF800000, unpack 0 0 with | .num true m _, .num _ n _ => decide (m ≠ 0 ∧ n = 0) | _, _ => false) = true ∧
    (3 : Nat) < 4 ∧ (0 : Int) ≤ 1 ∧ (-1 : Int) < 0 := by
  decide +kernel
theorem witness_FloatArithmeticResults : w0.canRun false { x := [0, 0, 31] } ∧ w0.nextOk := ⟨canRun_of (by decide +kernel), nextOk_of (by decide +kernel)⟩
theorem witness_FloatConversion : ((world ctxF).canRun true { x := [31, 0] } ∧ w0.canRun true { x := [31, 0] } ∧ (world ctxF).nextOk) ∧
    w0.cx.fmt = none ∧ (world ctxF).cx.fmt = some (encode (.fmt 2 3 3 (if true then 1 else 0))) :=
  ⟨⟨canRun_of (by decide +kernel), canRun_of (by decide +kernel), nextOk_of (by decide +kernel)⟩, by decide +kernel⟩
/-- Vector lanes 1, -1, NaN (FP32) in v1, zeros in v2; lanes 0 and 2 active in k1, none in k2. -/
def ctxV : Ctx := { ctx0 with v := [(1, 0x7FC00000FFFFFFFF00000001)], k := [(1, 5)] }
theorem witness_VectorArithmeticResults : (world ctxV).canRun false { v := [0, 1, 31] } ∧ (world ctxV).nextOk := ⟨canRun_of (by decide +kernel), nextOk_of (by decide +kernel)⟩
theorem witness_VectorApproximationResults : ((world ctxV).canRun false { v := [3, 1] } ∧ (world ctxV).nextOk) ∧ (1 : Nat) ≠ 0 :=
  ⟨⟨canRun_of (by decide +kernel), nextOk_of (by decide +kernel)⟩, by decide⟩
theorem witness_MaskAndLaneResults : (world ctxV).nextOk ∧ (world ctxV).canRun false {} ∧ (world ctxV).canRun false { x := [31] } ∧ (world ctxV).canRun false { v := [1, 2] } ∧
    (world ctxV).canRun false { v := [3, 1, 2] } ∧ (world ctxV).canRun false { x := [31], v := [3] } ∧ (world ctxV).canRun false { x := [31, 0], v := [3] } := by
  refine ⟨nextOk_of ?_, canRun_of ?_, canRun_of ?_, canRun_of ?_, canRun_of ?_, canRun_of ?_, canRun_of ?_⟩ <;> decide +kernel
theorem witness_ReductionsAndConversions : ((world ctxV).canRun false { v := [3, 1] } ∧ (world ctxV).canRun true { v := [3, 1, 2] } ∧ (world ctxV).nextOk ∧
      (world { ctxF with v := ctxV.v }).canRun true { v := [3, 1, 2] } ∧ (world { ctxF with v := ctxV.v }).nextOk) ∧
    (let x := (world ctxV).cx
     let act (k n : Nat) := ((List.range (lanes n)).filter fun j => (x.getK k).getLsbD j).map fun j => x.ln n 1 j
     tyIsFloat 8 = false ∧ tyIsFloat 0 = true ∧ act 2 8 = [] ∧ act 1 8 ≠ [] ∧ (∃ u ∈ act 1 0, (unpack 0 u).isNaN = true) ∧ (∀ u ∈ act 2 0, (unpack 0 u).isNaN = false) ∧
       tyW 4 = 8 ∧ x.fmt = none ∧ (world ctxF).cx.fmt ≠ none) := by
  refine ⟨⟨canRun_of ?_, canRun_of ?_, nextOk_of ?_, canRun_of ?_, nextOk_of ?_⟩, ?_⟩ <;> decide +kernel
/-- The own window of core 0, and a context with addresses in its registers: x1 the window, x2 a global word, x3 no space, x4 past the
window, x5 odd, x6 the data 0x8182838485868788. -/
def O : W64 := 0x4000000000000
def ctxA : Ctx := { ctx0 with x := [(1, O), (2, D + 0x40), (3, 8), (4, O + 0x3FFFC), (5, O + 1), (6, 0x8182838485868788), (7, 16)] }
def wA : State := world ctxA
theorem witness_AccessChecksTrap :
    (wA.canRun false { x := [9, 4], mem := true, ctr := .ld } ∧ wA.canRun false { x := [6, 4], mem := true, ctr := .st } ∧ wA.canRun false { x := [9, 5, 6], mem := true, ctr := .st }) ∧
    ((8 : Nat) ∣ 8 ∧ 2 ^ 52 ≤ (BitVec.allOnes 64).toNat ∧ space (8 : W64) = 0 ∧ space D = 2 ∧ space O = 1 ∧ ¬ 8 ∣ (O + 1).toNat ∧ 8 ∣ D.toNat ∧ D.toNat < 2 ^ 52 ∧
     wA.chip.spSize (bits (O + 0x3FFFC).toNat 47 3 * 768 + bits (O + 0x3FFFC).toNat 45 2 * 192 + bits (O + 0x3FFFC).toNat 37 8) < bits (O + 0x3FFFC).toNat 0 18 + 8 ∧
     bits (O + 0x40000).toNat 18 19 ≠ 0 ∧ 191 < bits (O + 192 * 2 ^ 37).toNat 37 8) ∧
    wA.at_.check wA.chip.cur (wA.cx.getX 4 + (4 : BitVec 13).signExtend 64) 8 8 = some 0x06 ∧ wA.at_.check wA.chip.cur (wA.cx.getX 5) 8 8 = some 0x05 ∧
    wA.at_.check wA.chip.cur (wA.cx.getX 3) 1 1 = some 0x09 := by
  refine ⟨⟨canRun_of ?_, canRun_of ?_, canRun_of ?_⟩, ?_⟩ <;> decide +kernel
theorem witness_OwnWindowAccesses :
    (wA.canRun false { x := [0, 1], mem := true, ctr := .ld } ∧ wA.nextOk ∧ wA.canRun false { x := [6, 1], mem := true, ctr := .st } ∧ wA.canRun false { x := [9, 1, 6], mem := true, ctr := .st }) ∧
    wA.mem.wf = true ∧ wA.cx.unsealed = false ∧ (∀ n ∈ [1, 2, 4, 8], wA.ownAccess (wA.cx.getX 1 + (8 : BitVec 13).signExtend 64) n n 8) ∧ wA.ownAccess (wA.cx.getX 1) 8 8 0 ∧
    (wA.chip.core wA.ck).fullOver 8 8 = true ∧ wA.chip.badAt (sram wA.ck 8) 8 = false := by
  refine ⟨⟨canRun_of ?_, nextOk_of ?_, canRun_of ?_, canRun_of ?_⟩, ?_⟩ <;> (try unfold State.ownAccess) <;> decide +kernel
theorem witness_GlobalAccessesLeaveTheCore :
    (wA.nextOk ∧ wA.canRun false { x := [31, 2], mem := true, ctr := .ld } ∧ wA.canRun false { x := [6, 2], mem := true, ctr := .st }) ∧ wA.cx.unsealed = false ∧
    (∀ n ∈ [1, 2, 4, 8], wA.globalAccess (wA.cx.getX 2 + (8184 : BitVec 13).signExtend 64) n n) ∧
    (wA.chip.core wA.ck).l1Find wA.chip.cur wA.cx.vi wA.now (wA.cx.getX 2 + (8184 : BitVec 13).signExtend 64) = none ∧ (wA.chip.core wA.ck).l1 = [] := by
  refine ⟨⟨nextOk_of ?_, canRun_of ?_, canRun_of ?_⟩, ?_⟩ <;> (try unfold State.globalAccess) <;> decide +kernel
def wV : State := world { ctxA with k := [(1, 5)] }
/-- Lane `j` of a vector access at x1 with stride x7, or contiguous, or gathered by zeros, as `ownAccess` asks. -/
def laneOk (a : W64) (off : Nat) : Prop := wV.ownAccess a 4 4 off ∧ (wV.chip.core wV.ck).fullOver off 4 = true ∧ wV.chip.badAt (sram wV.ck off) 4 = false
theorem witness_VectorLoadsAndStores :
    (wV.nextOk ∧ wV.canRun false { x := [1], v := [3], mem := true, ctr := .ld } ∧ wV.canRun false { x := [1, 7], v := [3], mem := true, ctr := .ld } ∧
     wV.canRun false { x := [1], v := [3, 4], mem := true, ctr := .ld } ∧ wV.canRun false { x := [1], v := [3], mem := true, ctr := .st } ∧
     wV.canRun false { x := [1, 7], v := [3], mem := true, ctr := .st } ∧ wV.canRun false { x := [1], v := [3, 4], mem := true, ctr := .st }) ∧
    wV.mem.wf = true ∧ wV.cx.unsealed = false ∧
    (∀ j < 16, (wV.cx.getK 1).getLsbD j = decide (j = 0 ∨ j = 2)) ∧ (∀ j ∈ [0, 2], laneOk (wV.cx.getX 1 + BitVec.ofNat 64 (j * 4)) (j * 4)) ∧
    (∀ j ∈ [0, 2], laneOk (wV.cx.getX 1 + BitVec.ofNat 64 j * wV.cx.getX 7) (j * 16)) ∧
    (∀ j ∈ [0, 2], laneOk (wV.cx.getX 1 + (BitVec.ofNat 32 (wV.cx.ln 0 4 j)).signExtend 64 * BitVec.ofNat 64 4) 0) := by
  refine ⟨⟨nextOk_of ?_, canRun_of ?_, canRun_of ?_, canRun_of ?_, canRun_of ?_, canRun_of ?_, canRun_of ?_⟩, ?_⟩ <;> (try unfold laneOk State.ownAccess) <;> decide +kernel
/-- Core 0 with its record given. -/
def onCore (k : Core) (c : Chip) : Chip := { c with cores := [(0, k)] }
/-- A dirty, an owned clean and a leased line of page D. -/
def lines : List L1Line :=
  [⟨0, D, coreNode 0, 0x30000, .owned true, List.replicate 128 7, 3⟩, ⟨0, D + 0x80, coreNode 0, 0x30080, .owned false, List.replicate 128 0, 3⟩, ⟨0, D + 0x100, 0x401, 0x30100, .leased 2000, List.replicate 128 0, 3⟩]
def k0 : Core := { l1 := lines, bufs := [(0, { valid := true, gen := 1, len := 128 })] }
/-- Registers: the handle of buffer 0 of core 0 (x8), of core 1 (x9), no handle (x10), numbers, and an old handle (x14). -/
def ctxH : Ctx := { ctx0 with x := [(1, O), (2, D), (3, D + 0x80), (4, D + 0x200), (8, handleOf 0 0 1), (9, handleOf 1 0 1), (11, 65536), (12, 5), (13, 128), (14, handleOf 0 0 2), (15, O + 128)] }
def wH (f : Ctx → Ctx := id) (k : Core := k0) : State := world (f ctxH) (onCore k)
def hasPend (kind : PKind) (a : Option PAns) (x : Ctx) : Ctx := { x with pend := { kind := kind, id := 7, left := 1, ans := a } }
theorem witness_LineMaintenanceAndHandles :
    ((wH.canRun false { x := [1], mem := true } ∧ wH.nextOk ∧ wH.canRun false { x := [3, 8, 12] } ∧ wH.canRun false { x := [8] } ∧ wH.canRun false { x := [3, 8] }) ∧
     (wH (hasPend .handle (some (.value 9 0)))).canRun false { x := [3, 9, 12] } ∧ (wH (hasPend .line (some (.value 0 0)))).canRun false { x := [2], mem := true }) ∧
    (let s := wH
     let k := s.chip.core 0
     let x := s.cx
     let inUse (off n : Nat) := k.bufs.any fun p => p.2.valid && meets off (off + n) p.2.base (p.2.base + p.2.len)
     isGlobal (x.getX 1) = false ∧ isGlobal (x.getX 2) = true ∧ (k.l1Find 0 0 s.now (x.getX 2)).isSome = true ∧ k.l1Find 0 0 s.now (x.getX 4) = none ∧ x.pend.kind ≠ .line ∧ x.pend.kind ≠ .handle ∧
     (k.l1.find? fun l => l.vi == 0 && l.va == lineOf (x.getX 3) && l.kind == .owned true) = none ∧ (k.l1.find? fun l => l.vi == 0 && l.va == lineOf (x.getX 2) && l.kind == .owned true) = lines.head? ∧
     (wH (hasPend .line (some (.value 0 0)))).cx.pend.ans = some (.value 0 0) ∧
     s.at_.ownOff 0 (x.getX 1) 1 = some 0 ∧ inUse 0 128 = true ∧ s.at_.ownOff 0 (x.getX 2) 1 = none ∧ s.at_.ownOff 0 (x.getX 15) 1 = some 128 ∧ inUse 128 128 = false ∧ (128 % 128 = 0 ∧ 5 % 128 ≠ 0) ∧
     x.ownsRun 128 256 = true ∧ x.ownsRun 0xFF80 0x10080 = false ∧ (k.bufs.get ({} : Buf) 1).valid = false ∧ (∀ j < 1, (k.bufs.get ({} : Buf) j).valid = true) ∧
     2 ^ 16 ≤ (x.getX 11).toNat ∧ (x.getX 12).toNat < 2 ^ 16 ∧ x.cnt .st = 0 ∧ x.hasRefused = false ∧ handleParse (x.getX 10) = none ∧ (handleParse (x.getX 14)).map (·.1) = some 0 ∧
     s.chip.current (x.getX 14) = none ∧ handleParse (x.getX 9) = some (1, 0, 1) ∧ (s.chip.current (x.getX 8)).map (fun p => (p.1, p.2.1, p.2.2.holder, p.2.2.creator, p.2.2.suspended)) = some (0, 0, 0, 0, false)) ∧
    (wH (hasPend .handle (some (.refused 0x07 0)))).cx.pend.ans = some (.refused 0x07 0) ∧
    (∀ j < 64, ((wH id { bufs := (List.range 64).map fun j => (j, { valid := true, gen := 1, base := 0x8000 + 128 * j, len := 128 }) }).chip.core 0).bufs.get ({} : Buf) j |>.valid = true) := by
  refine ⟨⟨⟨canRun_of ?_, nextOk_of ?_, canRun_of ?_, canRun_of ?_, canRun_of ?_⟩, canRun_of ?_, canRun_of ?_⟩, ?_⟩ <;> decide +kernel
/-- A legal copy of 128 bytes from D to the own window, with a completion word. -/
def cp0 : CpRegs := { src := D, dst := O, shape := 128 + 2 ^ 24, done := O + 0x100 }
def ctxC : Ctx := { ctxH with cp := cp0, cpStat := [⟨5, 3, 0, 4⟩], x := ctxH.x ++ [(16, 5), (17, 8197), (18, O + 2 ^ 37)] }
def copy0 : CopyE := { id := 5, ctx := 0, op := 4, vi := 0, r := cp0, running := true }
theorem witness_CopyAndLineStateInstructions :
    let s := world ctxC (onCore { copies := [copy0], empty := [3] })
    let p (k : PKind) := world (hasPend k (some (.value 1 0)) ctxC)
    ((s.canRun false { x := [16], mem := true, ctr := .cp } ∧ s.nextOk ∧ s.canRun false { x := [31, 16] } ∧ s.canRun false { x := [16] } ∧ s.canRun false { x := [1, 13], mem := true } ∧
      s.canRun false { x := [31, 1], mem := true }) ∧ (p .line).canRun false { x := [18, 13], mem := true } ∧ (p .waddr).canRun false { x := [2, 13], mem := true } ∧
      (p .festat).canRun false { x := [3, 18], mem := true }) ∧
    (s.at_.liveCopies 0).length < 32 ∧ s.at_.goCheck 0 cp0 = none ∧ s.cx.lostCopy cp0 = none ∧ s.at_.copySeals 0 cp0 = false ∧ s.at_.goCheck 0 { cp0 with shape := 0 } = some (0x01, 0x024) ∧
    (s.cx.getX 16).toNat % 65536 / 8192 = 0 ∧ s.cx.cpStat.find? (·.id == 5) = some ⟨5, 3, 0, 4⟩ ∧ (s.cx.getX 17).toNat % 65536 / 8192 ≠ 0 ∧ (s.chip.core 0).copies = [copy0] ∧
    copy0.word = false ∧ copy0.touched = [] ∧
    permOk (s.cx.getX 1) = true ∧ space (s.cx.getX 1) = 1 ∧ (s.cx.getX 1).toNat % 128 = 0 ∧ (s.cx.getX 13).toNat % 128 = 0 ∧ s.at_.spParse (s.cx.getX 1) 128 = some (0, 0) ∧ s.at_.protect 0 0 128 = none ∧
    s.cx.cnt .st = 0 ∧ (s.cx.getX 12).toNat % 128 ≠ 0 ∧ s.at_.spParse (s.cx.getX 1) 1 = some (0, 0) ∧ s.at_.spParse (s.cx.getX 18) 128 = some (1, 0) ∧ s.at_.spParse (s.cx.getX 18) 1 = some (1, 0) ∧
    s.cx.pend.kind ≠ .line ∧ s.cx.pend.kind ≠ .festat ∧ s.cx.pend.kind ≠ .waddr ∧ (p .line).cx.pend.ans = some (.value 1 0) ∧ isGlobal (s.cx.getX 2) = true ∧ (s.cx.getX 2).toNat % 8 = 0 := by
  refine ⟨⟨⟨canRun_of ?_, nextOk_of ?_, canRun_of ?_, canRun_of ?_, canRun_of ?_, canRun_of ?_⟩, canRun_of ?_, canRun_of ?_, canRun_of ?_⟩, ?_⟩ <;> decide +kernel
/-- A context with an operation out, counted in one counter, and with a later visibility time. -/
def ctxOut (k : Ctr) : Ctx := { ctxA with ops := [{ id := 0, kind := .load, ctr := k }] }
theorem witness_FenceResults : ((∀ k ∈ [Ctr.ld, .st, .cp], runs (world (ctxOut k)) false {} = true ∧ next (world (ctxOut k)) = true) ∧ w0.canRun false {} ∧ w0.nextOk ∧
      (world { ctx0 with vismax := 1001 }).canRun false {}) ∧
    (world (ctxOut .ld)).cx.cnt .ld ≠ 0 ∧ (world (ctxOut .st)).cx.cnt .st ≠ 0 ∧ (world (ctxOut .cp)).cx.cnt .cp ≠ 0 ∧ w0.cx.cnt .ld = 0 ∧ w0.cx.cnt .st = 0 ∧ w0.cx.cnt .cp = 0 ∧
    3 ≤ (3 : BitVec 4).toNat ∧ (2 : BitVec 4).toNat < 3 ∧ w0.now < (world { ctx0 with vismax := 1001 }).cx.vismax ∧ w0.cx.vismax ≤ w0.now := by
  refine ⟨⟨?_, canRun_of ?_, nextOk_of ?_, canRun_of ?_⟩, ?_⟩ <;> decide +kernel
theorem witness_OrderedAndAtomicAccessesLeave :
    let acq := world { ctxA with ops := [{ id := 0, kind := .ldacq 7, ctr := .ld, dst := .x 12 8 false }] }
    ((wA.canRun false { x := [31, 2], mem := true, ctr := .ld } ∧ wA.nextOk ∧ wA.canRun false { x := [2, 6], mem := true, ctr := .st } ∧ wA.canRun false { x := [0, 2, 6], mem := true, ctr := .ld } ∧
      (world (ctxOut .st)).canRun false { x := [2, 6], mem := true, ctr := .st } ∧ (world { ctxA with vismax := 1001 }).canRun false { x := [2, 6], mem := true, ctr := .st }) ∧
     wA.globalAccess (wA.cx.getX 2) 8 8 ∧ wA.globalAccess (wA.cx.getX 2) 4 4 ∧ (world (ctxOut .st)).globalAccess ((world (ctxOut .st)).cx.getX 2) 8 8) ∧ wA.cx.unsealed = false ∧
    acq.chip.wr = [] ∧ acq.cx.fmt = none ∧ acq.cx.acquiring = true ∧ acq.cx.blocked { x := [9, 2], mem := true, ctr := .ld } = false ∧
    wA.cx.ops = [] ∧ (∃ o ∈ (world (ctxOut .st)).cx.ops, o.id < (world (ctxOut .st)).chip.serial ∧ o.ctr = .st) ∧ (∀ o ∈ (world (ctxOut .st)).cx.ops, o.hold = false) ∧
    (wA.chip.core wA.ck).amoOut = [] := by
  refine ⟨⟨⟨canRun_of ?_, nextOk_of ?_, canRun_of ?_, canRun_of ?_, canRun_of ?_, canRun_of ?_⟩, ?_⟩, ?_⟩ <;> (try unfold State.globalAccess) <;> decide +kernel
/-- An atomic on a word of slice 0 of die 0, and of the scratchpad of core 0. -/
def qAt (op n : Nat) : Req := { src := 0, part := 5, op := 4, act := .atomic op 3 0, va := D, n := n, pa := 0x30000, home := sliceNode 0 0 }
theorem witness_AtomicEvents :
    let s := world { ctx0 with ops := [{ id := 4, kind := .atomic, ctr := .ld, dst := .x 3 8 true, parts := [⟨5, 0, qAt 0 8⟩] }] } fun c =>
      { c with tags := [(0x600, 1)], cores := [(0, { amoOut := [(sliceNode 0 0, qAt 0 8)] })] }
    let r : Rec := { src := 0, part := 5, seq := 0, old := 7, flags := 0, vt := 900 }
    s.chip.wr = [] ∧ (qAt 11 8).host = false ∧ s.mem.wf = true ∧ nodeIsCore (qAt 0 8).home = false ∧ (qAt 0 8).home ≠ bridgeNode ∧ (s.chip.home (sliceNode 0 0)).recOf (qAt 0 8) = none ∧
    s.chip.badAt 0x30000 8 = false ∧ (s.chip.home (sliceNode 0 0)).watches = [] ∧ (∀ j < 8, s.chip.tags.get 0 ((0x30000 + j) / 128) = 0 + 1) ∧
    ({ s.chip with homes := [(sliceNode 0 0, { recs := [r] })] }.home (sliceNode 0 0)).recOf (qAt 0 8) = some r ∧
    (s.chip.ctx 0).ops.map (fun o => (o.id, o.dst, o.parts.map (·.q), o.refused)) = [(4, .x 3 8 true, [qAt 0 8], [])] ∧
    (s.chip.core 0).amoOut.any (fun p => p.2.part == 5) = true ∧ space (qAt 0 8).va = 2 := by
  decide +kernel
theorem witness_WaitingAndPrefix :
    let s := world ctxLoop
    let t := world { ctx0 with x := [(1, 1001)] }
    (w0.canRun false {} ∧ w0.nextOk ∧ w0.canRun false { x := [0] } ∧ t.canRun false { x := [1] } ∧ s.canRun false {} ∧ s.nextOk ∧ (world (ctxOut .ld)).canRun false {}) ∧
    w0.cx.cnt .ld ≤ (0 : BitVec 4).toNat ∧ ¬ (world (ctxOut .ld)).cx.cnt .ld ≤ (0 : BitVec 4).toNat ∧ w0.chip.cur % 8 < 6 ∧ 6 ≤ 7 % 8 ∧ (w0.cx.getX 0).toNat ≤ w0.now ∧
    t.now < (t.cx.getX 1).toNat ∧ t.cx.wait ≠ .time 1001 ∧ ({ ctx0 with inTrap := true } : Ctx).noLoops = true ∧ s.cx.noLoops = false ∧ ∃ n < 4, s.cx.lpc.get 0 n ≠ 0 ∧ s.cx.lpe.get 0 n = s.cx.pc := by
  refine ⟨⟨canRun_of ?_, nextOk_of ?_, canRun_of ?_, canRun_of ?_, canRun_of ?_, nextOk_of ?_, canRun_of ?_⟩, ?_⟩ <;> decide +kernel
def wPriv : State := world { ctxA with priv := true }
theorem witness_ControlRegisters : ((∀ d ∈ [0, 1, 31], runs wA false { x := [d] } = true ∧ runs wPriv false { x := [d] } = true ∧ runs (world (ctxOut .mx)) false { x := [d] } = true) ∧ wA.nextOk ∧
      wPriv.nextOk ∧ (world (ctxOut .mx)).nextOk) ∧
    wA.cx.cnt .mx = 0 ∧ (world (ctxOut .mx)).cx.cnt .mx ≠ 0 ∧ wPriv.cx.priv = true ∧ wA.cx.priv = false ∧ (0x400 : Nat) ≤ 0x6FF ∧ (world { ctxA with priv := true, inTrap := true }).cx.noLoops = true ∧
    ({ wPriv.cx with lpc := wPriv.cx.lpc.put 3 9 }.nextPc wPriv.cx.pc).2.toNat % 4 = 0 := by
  refine ⟨⟨?_, nextOk_of ?_, nextOk_of ?_, nextOk_of ?_⟩, ?_⟩ <;> decide +kernel
/-- Shapes: FP32 16 × 16 in m0, m1 and m2, FP16 in m3 and m4, FP8 16 × 128 and 128 × 16 in m5 and m6, the scales 17 × 1 in m7. -/
def shp (r c t : Nat) : W64 := w64 (r + c * 2 ^ 16 + t * 2 ^ 32)
def ctxM : Ctx := { ctxA with
  tiles := [7, 6, 5, 4, 3, 2, 1, 0], rc := 8
  msh := [(0, shp 16 16 0), (1, shp 16 16 0), (2, shp 16 16 0), (3, shp 16 16 2), (4, shp 16 16 2), (5, shp 16 128 4), (6, shp 128 16 5), (7, shp 17 1 0)] }
def wM (f : Ctx → Ctx := id) : State := world (f ctxM)
/-- The plain operand lists of tileCheck. -/
def tl (l : List (Nat × Bool × Bool)) (x : Ctx) : List (Nat × Shape × Bool × Bool) := l.map fun o => (o.1, x.shape o.1 none, o.2.1, o.2.2)
theorem witness_TileBindingAndFaults :
    (wM.nextOk ∧ wM.canRun false {} ∧ wM.canRun false { wm := [2] } ∧ wM.canRun false { x := [1], wm := [0], mem := true, ctr := .ld } ∧ wM.canRun false { x := [1], rm := [0], mem := true, ctr := .st } ∧
     wM.canRun true { rm := [1, 2], wm := [0], ctr := .mx } ∧ wM.canRun true { x := [1], rm := [1], wm := [0], ctr := .mx } ∧ wM.canRun true { rm := [5, 6, 7], wm := [0], ctr := .mx }) ∧
    (let x := wM.cx
     let y : Ctx := { x with tiles := [0], rc := 2 }
     (2 ∈ x.tiles ∧ wM.mem.wf = true ∧ 3 ∉ y.tiles ∧ y.tiles.length < y.rc ∧ ({ y with rc := 1 } : Ctx).rc ≤ y.tiles.length) ∧
     tileCheck y (tl [(0, false, false), (3, true, true)] y) = some (BitVec.ofNat 64 (1 + 256)) ∧
     tileCheck x [(0, ⟨0, 16, 0⟩, true, true)] = some (BitVec.ofNat 64 3) ∧ tileCheck x (tl [(0, true, true)] x) = some (BitVec.ofNat 64 4) ∧
     tileCheck x (tl [(0, false, true), (1, false, false)] x) = some (BitVec.ofNat 64 5) ∧ tileCheck x (tl [(0, false, false)] x) = none ∧
     tileCheck x (macroOperands x 0 3 4 none) = none ∧ tileCheck x (macroOperands x 0 5 6 (some 7)) = none ∧ (tileCheck x (macroOperands x 0 1 4 none)).isSome = true ∧
     tileCheck x (macroOperands x 0 5 6 (some 7)) = none ∧ ({ x with seqValid := true, seqSeg := 1 } : Ctx).seqValid = true ∧ 16 / 16 * (16 / 16) * ((16 + 127) / 128) ≤ 1) := by
  refine ⟨⟨nextOk_of ?_, canRun_of ?_, canRun_of ?_, canRun_of ?_, canRun_of ?_, canRun_of ?_, canRun_of ?_, canRun_of ?_⟩, ?_⟩ <;> decide +kernel
theorem witness_TileLoadsAndStores :
    (wM.nextOk ∧ wM.canRun false { x := [1], wm := [7], mem := true, ctr := .ld } ∧ wM.canRun false { x := [1], rm := [7], mem := true, ctr := .st }) ∧
    wM.mem.wf = true ∧ wM.chip.cur < 49152 ∧ wM.cx.unsealed = false ∧ 7 ∈ wM.cx.tiles ∧ (wM.cx.shape 7 none).valid = true ∧ (wM.cx.shape 7 none).area = 68 ∧
    wM.at_.check wM.chip.cur (wM.cx.getX 1) 68 128 = none ∧
    (∀ p ∈ linesOf (wM.cx.getX 1) 68, wM.ownAccess p.2.1 p.2.2 128 p.1 ∧ (wM.chip.core wM.ck).fullOver p.1 p.2.2 = true ∧ wM.chip.badAt (sram wM.ck p.1) p.2.2 = false) := by
  refine ⟨⟨nextOk_of ?_, canRun_of ?_, canRun_of ?_⟩, ?_⟩ <;> (try unfold State.ownAccess) <;> decide +kernel
theorem witness_TileOperations :
    (wM.nextOk ∧ wM.canRun false { wm := [0], ctr := .mx } ∧ wM.canRun true { rm := [1, 2], wm := [0], ctr := .mx } ∧ wM.canRun true { x := [1], rm := [1], wm := [0], ctr := .mx } ∧
     wM.canRun true { rm := [3], wm := [0], ctr := .mx } ∧ wM.canRun false { rm := [1], wm := [0], ctr := .mx }) ∧
    (Instr.mzero 0).takesPrefix = false ∧ (Instr.mtrn 0 1).takesPrefix = false ∧ (Instr.madd 0 1 2).takesPrefix = true ∧ (Instr.mcvt 0 3).takesPrefix = true ∧
    (∀ n ∈ [0, 1, 2, 3], n ∈ wM.cx.tiles ∧ (wM.cx.shape n none).valid = true ∧ (wM.cx.shape n none).ty ≤ 3 ∧ (wM.cx.shape n none).rows = 16 ∧ (wM.cx.shape n none).cols = 16) ∧
    wM.cx.fmtTypes = (none, none) ∧ tyW (wM.cx.shape 0 none).ty = tyW (wM.cx.shape 1 none).ty ∧ wM.mem.wf = true ∧
    (∀ m ∈ [TileOp.zero, .add, .scl, .cvt, .trn], let s := wM fun x => { x with ops := [{ id := 4, kind := .tile { op := m } 5, ctr := .mx }] }
      s.chip.wr = [] ∧ s.mem.wf = true ∧ ((s.chip.ctx 0).ops.find? (·.id == 4)).map (fun o => (o.kind, o.ctr)) = some (.tile { op := m } 5, .mx)) := by
  refine ⟨⟨nextOk_of ?_, canRun_of ?_, canRun_of ?_, canRun_of ?_, canRun_of ?_, canRun_of ?_⟩, ?_⟩ <;> decide +kernel
/-- A macro-op of 16 × 16 × 256 FP16 at a segment. -/
def mo (seg : Nat) : MOp := { args := { d := 0, a := 3, b := 4, ta := 2, tb := 2, rows := 16, cols := 16, kk := 256 }, seg := seg, ns := 2, left := 0, scale := false, fmt := none }
theorem witness_MacroOpsAndBlockSums :
    (wM.nextOk ∧ wM.canRun true { rm := [3, 4], wm := [0], ctr := .mx } ∧ wM.canRun true { rm := [5, 6, 7], wm := [0], ctr := .mx }) ∧
    (let x := wM.cx
     let shapes (sd sa sb : Shape) (fp8 : Bool) : Prop := sd.ty = 0 ∧ sd.rows % 16 = 0 ∧ sd.cols % 16 = 0 ∧ sa.rows = sd.rows ∧ sb.cols = sd.cols ∧ sa.cols = sb.rows ∧
       sa.cols % (if fp8 then 128 else 16) = 0 ∧ (if fp8 then (sa.ty = 4 ∨ sa.ty = 5) ∧ (sb.ty = 4 ∨ sb.ty = 5) else (sa.ty = 2 ∨ sa.ty = 3) ∧ (sb.ty = 2 ∨ sb.ty = 3))
     (∀ n < 8, n ∈ x.tiles ∧ (x.shape n none).valid = true) ∧ x.fmtTypes = (none, none) ∧ x.seqValid = false ∧
     shapes (x.shape 0 none) (x.shape 3 none) (x.shape 4 none) false ∧ shapes (x.shape 0 none) (x.shape 5 none) (x.shape 6 none) true ∧
     (x.shape 7 none).ty = 0 ∧ (x.shape 7 none).rows = (x.shape 0 none).rows + 1 ∧ (x.shape 7 none).cols = (x.shape 5 none).cols / 128) ∧
    (∀ seg < 2, let s := wM fun x => { x with mop := some (mo seg), ops := [{ id := 4, kind := .mma, ctr := .mx }] }
     s.mem.wf = true ∧ s.chip.wr = [] ∧ (mo seg).seg < (mo seg).args.ns ∧ (s.chip.ctx 0).mmaDue s.now = none ∧ (s.chip.ctx 0).mop = some (mo seg) ∧ (mo seg).left = 0 ∧
     (s.chip.ctx 0).stopReq = false ∧ s.chip.endReason 0 = none) ∧ (mo 0).seg + 1 < (mo 0).ns ∧ (mo 1).ns ≤ (mo 1).seg + 1 ∧
    ((wM fun x => { x with ops := [{ id := 4, kind := .mmaEnd (mo 1) 999, ctr := .mx }] }).chip.ctx 0).mmaDue 1000 = some (4, mo 1) ∧
    (∀ p ∈ [(((false, 3, 0), (true, 5, -18)) : (Bool × Nat × Int) × (Bool × Nat × Int))], -18 ≤ p.1.2.2 + p.2.2.2) := by
  refine ⟨⟨nextOk_of ?_, canRun_of ?_, canRun_of ?_⟩, ?_⟩ <;> decide +kernel
theorem witness_MgeoResults : w0.canRun false { x := [0] } ∧ w0.nextOk := ⟨canRun_of (by decide +kernel), nextOk_of (by decide +kernel)⟩
/-- The lock of the second line of page D, whose home is slice 0 of die 0; waiters of contexts 0 and 8, a held and a waiting entry of context 0. -/
def key : LKey := ⟨sliceNode 0 0, 0x30080⟩
def wt (xk : Nat) : Waiter := ⟨xk, 5, 20, 0, D + 0x80⟩
def held0 : Held := { line := D, key := key, eid := 5, hold := 20 }
def waiting0 : WaitE := { line := D + 0x80, eid := 5, hold := 20 }
theorem roomFor {k : Core} (h : k.amoOut = []) : ∀ home, (k.amoOut.filter (·.1 == home)).length < 8 := by simp [h]
theorem witness_LockInstructions :
    let s := wA
    let h := world { ctxA with held := [held0], x := (8, D) :: ctxA.x }
    let n := world { ctxA with held := [{ held0 with next := some (wt 8) }], x := (8, D) :: ctxA.x }
    let m := world { ctxA with held := List.replicate 4 held0 }
    let p := world (hasPend .lock (some (.value 0 0)) ctxA)
    ((∀ u ∈ [[9, 2, 0], [2], [9, 2], [9, 8, 6], [8], [9, 8], [9, 3, 0], [3], [9, 3]], runs s false { x := u, mem := true, ctr := .ld } = true ∧ runs h false { x := u, mem := true, ctr := .ld } = true ∧
        runs n false { x := u, mem := true } = true ∧ runs m false { x := u, mem := true, ctr := .ld } = true ∧ runs p false { x := u, mem := true } = true) ∧
      ∀ t ∈ [s, h, n, m, p], next t = true) ∧
    (s.at_.lockCheck s.chip.cur (s.cx.getX 3) ≠ none ∧ s.cx.pend.kind ≠ .lock ∧ s.at_.lockCheck s.chip.cur (s.cx.getX 2) = none ∧ s.cx.unsealed = false) ∧
    (∀ home, ((s.chip.core s.ck).amoOut.filter (·.1 == home)).length < 8) ∧ p.cx.pend.ans = some (.value 0 0) ∧
    h.at_.lockCheck 0 (h.cx.getX 8) = none ∧ (∃ e ∈ h.cx.held, e.line = lineOf (h.cx.getX 8)) ∧ (∀ e ∈ h.cx.held, e.line ≠ lineOf (h.cx.getX 2 + 0x80)) ∧ (∀ e ∈ s.cx.held, e.line ≠ D) ∧
    h.cx.lostOver D 128 = none ∧ 4 ≤ m.cx.held.length ∧ s.cx.held.length + s.cx.triesOut < 4 ∧ h.cx.getX 6 ≠ 0 ∧ h.cx.getX 0 = 0 ∧
    h.cx.held = [held0] ∧ held0.owner = none ∧ held0.next = none ∧ n.cx.held = [{ held0 with next := some (wt 8) }] ∧ h.cx.cnt .ld = 0 ∧ h.cx.cnt .st = 0 ∧ h.cx.cnt .cp = 0 ∧
    h.cx.vismax ≤ h.now ∧ (h.chip.core h.ck).ghostsUsed < 16 := by
  refine ⟨?_, ?_, roomFor (by decide +kernel), ?_⟩ <;> decide +kernel
/-- A lock request of context 16 for that lock, and its home with an entry. -/
def qLock (try_ hs : Bool) : Req := { src := 16, part := 6, act := .lock try_ 20 true hs 6, va := D + 0x80, pa := 0x30080, home := sliceNode 0 0, n := 128 }
def lockIn (l : List LockE) (r : List Rec := []) : State := world ctx0 fun c => { c with homes := [(sliceNode 0 0, { locks := l, recs := r })] }
def lockE (st : LSt) (f z : Option Waiter) : LockE := { addr := 0x30080, st := st, holder := f, tail := z }
theorem witness_LockHomeEvents :
    let q := qLock false true
    let w : Waiter := ⟨16, 6, 20, 0, lineOf q.va⟩
    let r (l : LockRep) : Rec := { src := 2, part := 6, seq := 0, old := 0, flags := 0, vt := 0, lock := l }
    let free (s : State) : Prop := let h := s.chip.home key.home
      h.recOf q = none ∧ (∀ p ∈ h.probes, p.q.part ≠ q.part) ∧ ∀ l ∈ h.locks, ∀ p ∈ l.parked, p.1.part ≠ q.part
    let ent (l : LockE) : Prop := free (lockIn [l]) ∧ (lockIn [l]).chip.lockEnt key = some l ∧ l.parked = []
    (nodeIsCore key.home = false ∧ q.home = key.home ∧ q.pa / 128 * 128 = key.addr ∧ q.host = false) ∧
    ((lockIn [] [r .enqueued]).chip.home key.home).recOf q = some (r .enqueued) ∧ ((lockIn [] [r (.grant 2 [])]).chip.home key.home).recOf q = some (r (.grant 2 [])) ∧
    (free (lockIn []) ∧ (lockIn []).chip.lockEnt key = none) ∧
    (let s := lockIn ((List.range 256).map fun i => { lockE .held (some (wt 0)) (some (wt 0)) with addr := 128 * i })
     free s ∧ s.chip.lockEnt key = none ∧ 256 ≤ (s.chip.home key.home).locks.length) ∧
    ent (lockE .held (some (wt 0)) (some (wt 0))) ∧ ent (lockE .queued (some (wt 0)) (some (wt 8))) ∧ ent (lockE .orphan none none) ∧ ent (lockE .breaking (some (wt 0)) (some (wt 0))) ∧
    ent (lockE .breaking (some (wt 0)) (some (wt 8))) ∧ wt 8 ≠ wt 0 ∧ (lockE .held (some (wt 0)) (some (wt 0))).deadline ≤ (lockIn []).now ∧ (lockIn []).chip.wr = [] ∧
    (qLock true true).act = .lock true 20 true true 6 ∧ (qLock false false).act = .lock false 20 true false 6 := by
  decide +kernel
theorem witness_LockCoreEvents :
    let w := wt 0
    let go (x : Ctx) (k : Core := {}) : Chip := (world x fun c => { c with cores := [(0, k)] }).chip
    let ws : Ctx := { ctx0 with st := .stall, waiting := some waiting0, pend := { kind := .lock, id := 5, left := 1 } }
    let sk : Ctx := { ctx0 with st := .halt, waiting := some { waiting0 with granted := some 0, key := some key, next := some (wt 8) } }
    let ho : Ctx := { ctx0 with held := [{ held0 with next := some (wt 8) }] }
    let g : Ghost := { w := w, key := key, next := some (wt 8) }
    (∀ c ∈ [go ws, go sk, go ho, go ctx0 { ghosts := [g] }], c.wr = []) ∧ (((go ws).ctx 0).waiting = some waiting0 ∧ waiting0.eid = w.eid ∧ ((go ws).ctx 0).ops = [] ∧ ((go ws).ctx 0).st = .stall ∧
      ((go ws).ctx 0).pend.id = w.eid ∧ w.eid ≠ 0 ∧ ((go ws).ctx 0).pend.ans = none ∧ waiting0.deadline = none ∧ ((go ws).core 0).links = [] ∧ ((go ws).core 0).ghosts = [] ∧
      ((go ws).ctx ((go ws).holderOf w)).held = [] ∧ waiting0.granted = none ∧ ((go ws).core 0).ghostsUsed < 16) ∧
    (({ waiting0 with deadline := some 1000 } : WaitE).deadline = some 1000) ∧
    (((go sk).ctx 0).st = .halt ∧ ((go sk).core 0).amoOut = []) ∧ (qLock false true).host = false ∧ ({ qLock false true with src := 0, part := 5 } : Req).part = waiting0.eid ∧
    (((go ho).ctx 0).held = [{ held0 with next := some (wt 8) }] ∧ held0.eid = w.eid ∧ held0.lost = false ∧ ∀ j < 8, j ≠ 0 → ((go ho).ctx j).held = []) ∧
    (((go ctx0 { ghosts := [g] }).ctx 0).waiting = none ∧ ((go ctx0 { ghosts := [g] }).core (coreOf w.xk)).ghosts = [g] ∧ g.w = w ∧ g.next = some (wt 8) ∧ g.breaking = false) := by
  decide +kernel
theorem witness_DeadlockProbeEvents :
    let q := qLock false true
    let s := world { ctx0 with held := [held0], waiting := some { waiting0 with eid := 7, key := some key } } fun c =>
      { c with homes := [(sliceNode 0 0, { locks := [lockE .held (some (wt 16)) (some (wt 16))] })] }
    let u := world { ctx0 with held := [held0], waiting := some { waiting0 with eid := 7, key := some key } } fun c =>
      { c with homes := [(sliceNode 0 0, { locks := [lockE .queued (some (wt 8)) (some (wt 16))] })] }
    let x := s.chip.ctx (s.chip.holderOf (wt 0))
    s.chip.wr = [] ∧ q.host = false ∧ ((lockIn []).chip.ctx ((lockIn []).chip.holderOf (wt 0))).waiting = none ∧ (∃ e ∈ x.held, e.eid = (wt 0).eid) ∧
    x.waiting = some { waiting0 with eid := 7, key := some key } ∧ s.chip.lockEnt key = some (lockE .held (some (wt 16)) (some (wt 16))) ∧ (wt 16).xk = q.src ∧ (wt 8).xk ≠ q.src ∧
    u.chip.lockEnt key = some (lockE .queued (some (wt 8)) (some (wt 16))) ∧ nodeIsCore q.home = false ∧ (⟨q.home, q.pa / 128 * 128⟩ : LKey) = key ∧ (s.chip.vi q.vi).lklog.getLsbD 0 = false := by
  decide +kernel
/-- Names and blocks: x20 the mailbox 0 of core 1, x21 that of core 0, x22 a number, x23 a name with a reserved bit; the block at O + 0x1000 is
one of APIN and ARM, that at O + 0x1040 one of WATCH. -/
def ctxN : Ctx := { ctxA with x := ctxA.x ++ [(20, 1), (21, 0), (22, 4096), (23, 2 ^ 17), (24, O + 0x1000), (25, O + 0x1040), (26, O + 0x800), (27, O + 2 ^ 37 + 2 ^ 18), (28, G)] }
def blocks : List (Nat × Nat) := [(sram 0 0x1000, 1), (sram 0 0x1008, (O + 0x2000).toNat), (sram 0 0x1010, (O + 0x3000).toNat), (sram 0 0x1018, 128), (sram 0 0x1040, G.toNat)]
def wN (f : Ctx → Ctx := id) (k : Core := {}) : State := world (f ctxN) (onCore k) blocks
theorem witness_MessagesLeaveTheCore :
    let s := wN
    let p := wN (hasPend .sendn (some (.value 0 0)))
    (runs s false { x := [20, 24], mem := true, ctr := .msg } = true ∧ runs s false { x := [23, 24], mem := true, ctr := .msg } = true ∧ runs s false { x := [9, 20, 24], mem := true, ctr := .msg } = true ∧
      runs p false { x := [9, 20, 24], mem := true, ctr := .msg } = true ∧ runs s false { x := [24, 20, 28, 16, 17, 18, 19], mem := true, ctr := .msg } = true ∧ next s = true ∧ next p = true) ∧
    s.cx.unsealed = false ∧ s.chip.cur < 49152 ∧ nameOk (s.cx.getX 20) = true ∧ nameOk (s.cx.getX 23) = false ∧ s.at_.checkOwn 0 (s.cx.getX 24) 16 16 = none ∧ s.cx.lostOver (s.cx.getX 24) 16 = none ∧
    s.at_.ownOff 0 (s.cx.getX 24) 16 = some 0x1000 ∧ (s.chip.core 0).fullOver 0x1000 16 = true ∧ s.chip.muRoom s.ck (s.cx.getX 20) = true ∧ s.cx.pend.kind ≠ .sendn ∧
    p.cx.pend.ans = some (.value 0 0) ∧ (s.cx.getX 20).toNat % 1024 < 768 ∧ (s.cx.getX 28).toNat % 4 = 0 ∧ s.at_.checkOwn 0 (s.cx.getX 24) 128 128 = none ∧ s.cx.lostOver (s.cx.getX 24) 128 = none ∧
    s.chip.muRoom s.ck (BitVec.ofNat 64 (2 ^ 63 + 1)) = true ∧ 2 ^ 17 ≤ (s.cx.getX 23).toNat ∧ (s.cx.getX 5).toNat % 4 ≠ 0 ∧ (s.cx.getX 20).toNat < 4096 ∧
    s.chip.muRoom s.ck (BitVec.ofNat 64 (2 ^ 62 + 1)) = true ∧ 4096 ≤ (s.cx.getX 22).toNat := by
  decide +kernel
theorem witness_ActorAndCounterInstructions :
    let s := wN
    let p := wN (hasPend .watch (some (.value 0 0)))
    let all := wN id { mbs := (List.range 16).map fun m => (m, { en := true }) }
    let bound := wN id { mbs := [(0, { en := true })] }
    let word (ad i : Nat) : Nat := wordAt ((List.range 32).map fun j => s.spByte (ad + j)) i
    (runs s false { x := [9, 0, 24], mem := true, ctr := .msg } = true ∧ runs all false { x := [9, 0, 24], mem := true } = true ∧ runs s false { x := [9, 2, 25], mem := true } = true ∧
      runs p false { x := [9, 2, 25], mem := true } = true ∧ runs s false { x := [26, 6], mem := true, ctr := .msg } = true ∧ runs s false { x := [27, 6], mem := true, ctr := .msg } = true ∧
      runs s false { x := [2, 6], mem := true, ctr := .msg } = true ∧ runs bound false { x := [21] } = true ∧ ∀ t ∈ [s, p, all, bound], next t = true) ∧
    (s.cx.unsealed = false ∧ (∀ ad ∈ [24, 25], s.at_.checkOwn 0 (s.cx.getX ad) 32 8 = none ∧ s.cx.lostOver (s.cx.getX ad) 32 = none) ∧ word 0x1000 0 = 1 ∧ word 0x1000 1 = (O + 0x2000).toNat ∧
      word 0x1000 2 = (O + 0x3000).toNat ∧ word 0x1000 3 = 128 ∧ s.at_.areaOk 0 (O + 0x2000) 16 = true ∧ s.at_.areaOk 0 (O + 0x3000) 128 = true ∧ (s.chip.mbox 0 0).en = false ∧
      (∀ j < 16, (all.chip.mbox 0 j).en = true) ∧ ((s.chip.core 0).wt.get ({} : WTask) 0).armed = false ∧ (s.chip.core 0).ec.get 0 0 < 128) ∧
    (isGlobal (s.cx.getX 2) = true ∧ (s.cx.getX 2).toNat % 8 = 0 ∧ s.cx.lostOver (s.cx.getX 2) 8 = none ∧ word 0x1040 3 = 0 ∧ (s.cx.getX 2).toNat % 128 + 8 ≤ 128 ∧ (s.chip.core 0).amoOut = [] ∧
      s.cx.pend.kind ≠ .watch ∧ p.cx.pend.ans = some (.value 0 0)) ∧
    (nameOk (s.cx.getX 21) = true ∧ (bound.chip.mbox 0 0).en = true ∧ s.cx.getX 21 = mbName bound.chip.group 0 0 (bound.chip.mbox 0 0) ∧ (bound.chip.mbox 0 0).count = 0 ∧ (bound.chip.mbox 0 0).run = false) ∧
    ((s.cx.getX 27).toNat / 2 ^ 18 % 32 = 1 ∧ s.at_.check 0 (O + 2 ^ 37) 8 8 = none ∧ space (O + 2 ^ 37) = 1 ∧ s.at_.ownOff 0 (O + 2 ^ 37) 8 = none ∧ s.at_.spParse (O + 2 ^ 37) 1 = some (1, 0) ∧
      s.cx.lostOver (O + 2 ^ 37) 8 = none ∧ s.cx.placeBusy (O + 2 ^ 37) 8 = false ∧ s.mem.wf = true ∧ s.ownAccess (O + 0x800) 8 8 0x800 ∧ isGlobal (s.cx.getX 2) = true) := by
  unfold State.ownAccess
  decide +kernel
/-- A message of 16 bytes from context 8 to the mailbox 0 of core 0, and a mailbox with a ring of 2 slots at 0x2000. -/
def msg0 : Msg := { id := 3, src := 8, vi := 0, name := 0, dst := coreNode 0, seq := 0, body := .mbox (List.replicate 16 7) }
def mbx : Mbox := { en := true, depthm1 := 1, ring := 0x2000, st := 0x3000, stlen := 128, area := true }
/-- Die 0 with its actor block at mailbox 0 of core 0, the spill ring and the save area in page D. -/
def avDie : Die := { avspill := D + 0x1000 + 4, avsave := D, avarea := 0x10000 }
def wB (m : Mbox) (k : Core := {}) (x : Ctx := {}) (d : Die := avDie) : State :=
  world ctx0 fun c => { c with ctxs := [(0, ctx0), (8, x)], cores := [(0, { k with mbs := [(0, m)] }), (1, k)], dies := [(0, d)] }
theorem witness_MailboxEvents :
    let s := wB mbx
    let u : MuMsg := { m := msg0, xk := 8, op := 4 }
    let held := wB mbx { msgs := [{ u with held := true, inflight := false }] }
    let sent := wB mbx { msgs := [u] } { ops := [{ id := 4, kind := .msg 0, ctr := .msg, parts := [⟨4, 0, {}⟩] }] }
    let z : Mbox := { mbx with frz := true, count := 1, hdrs := [0] }
    let stub : Mbox := { mbx with spill := true, area := false, spillBase := D + 0x1000, spillLog := 4, spillCount := 2, replaying := true }
    (s.chip.wr = [] ∧ s.mem.wf = true ∧ s.chip.mbox 0 0 = mbx ∧ mbx.type = msg0.name.toNat / 2 ^ 32 % 256 ∧ mbx.size = msg0.name.toNat / 2 ^ 30 % 4 ∧ msg0.src < 49152 ∧ msg0.reoffer = false ∧
      mbx.count ≤ mbx.depthm1 ∧ (List.replicate 16 (7 : Byte)).length = 16 * 2 ^ mbx.size ∧ (({ mbx with count := 2 } : Mbox).depthm1 < 2) ∧ ({ mbx with vi := 1 } : Mbox).vi ≠ msg0.vi) ∧
    (msg0.dst < 2 ^ 16 ∧ (held.chip.core 1).msgs = [{ u with held := true, inflight := false }] ∧ u.due ≤ held.now ∧ u.m = msg0 ∧ u.gone = false ∧ u.xk = msg0.src ∧ msg0.sendn = false ∧
      (sent.chip.core 1).msgs = [u] ∧ (sent.chip.ctx 8).ops = [{ id := 4, kind := .msg 0, ctr := .msg, parts := [⟨u.op, 0, {}⟩] }]) ∧
    ((s.chip.die 0).avsel.toNat = 0 ∧ (wB {}).chip.mbox 0 0 = {} ∧ ({} : Mbox).en = false ∧ ({} : Mbox).spill = false ∧ 4 ≤ avDie.avspill.toNat % 32 ∧ avDie.avspill.toNat % 32 ≤ 16 ∧ z.count ≤ 2 ^ 4) ∧
    (writePieces (wB z).env false z.vi 0 (wB z).chip (evictPieces (wB z).env (wB z).chip 0)).2 = 0 ∧
    (avDie.avarea.toNat % 2 ^ 18 = 0x10000 ∧ 0x10000 % 128 = 0 ∧ (∀ g < 17, 16 ≤ g → (wB stub).chip.granuleFree 0 g = true) ∧ (0x10000 + upTo stub.ringLen 128 + stub.stlen + 4095) / 4096 = 17 ∧
      (match readRow (wB stub).env (wB stub).chip false 0 0 (D + 64) 128 with | .ok _ => true | .error _ => false) = true) ∧
    (1 < stub.spillCount ∧ stub.count ≤ stub.depthm1 ∧
      (match readRow (wB stub).env (wB stub).chip false 0 0 (stub.spillAt 0) 256 with | .ok (c, _) => decide (c.mbox 0 0 = stub) | .error _ => false) = true) := by
  decide +kernel
/-- Core 0 and its contexts, as the events of tasks and handlers find them. -/
def wT (k : Core) (l : List (Nat × Ctx) := []) (f : Chip → Chip := id) : State := world ctx0 fun c => f { c with ctxs := (0, ctx0) :: l, cores := [(0, k)] }
def task0 : Task := { ck := 0, vi := 0, pc := G, args := [1, 2, 3, 4, 5, 6] }
def hand0 : HandMsg := { ck := 0, vi := 0, pc := G, args := [1, 2, 3, 4], sender := 1 }
theorem witness_TaskAndHandlerEvents :
    let s := wT {}
    let m : Msg := { msg0 with body := .task task0 }
    let hand : Ctx := { ctx0 with kind := .handler, budget := 500 }
    let late : Req := { act := .strel 7 900, va := D }
    let ready : Mbox := { mbx with count := 1, hdrs := [5] }
    let q : Req := { src := 8, act := .rwi 3, va := O, pa := sram 0 0, home := coreNode 0, n := 8, data := List.replicate 8 9 }
    (s.chip.wr = [] ∧ m.body = .task task0 ∧ nodeCore m.dst = 0 ∧ s.chip.isOff 0 = false ∧ (wT {} [] fun c => { c with pcores := [(0, { off := true })] }).chip.isOff 0 = true ∧ (s.chip.core 0).taskRef = 0 ∧ m.src < 49152 ∧ m.reoffer = false ∧ ((wT { tasks := List.replicate 8 task0 }).chip.core 0).tasks.length = 8) ∧
    (((wT { tasks := [task0] }).chip.core 0).tasks = [task0] ∧ (∀ n < 32, ((s.chip.core 0).wt.get ({} : WTask) n).fired = []) ∧ (wT { tasks := [task0] }).chip.idleGeneral 0 = some 1 ∧ task0.args.length = 6) ∧
    (hand0.ck = 0 ∧ s.chip.net = [] ∧ s.chip.idleHandler 0 = some 6 ∧ (s.chip.core 0).hq = [] ∧ hand0.args.length = 4 ∧ (wT {} [(6, ctx0), (7, ctx0)]).chip.idleHandler 0 = none ∧
      ((wT { hq := List.replicate 16 (.msg hand0) } [(6, ctx0), (7, ctx0)]).chip.core 0).hq.length = 16 ∧
      ∃ f ∈ (wT {} [] fun c => { c with net := [⟨handFrom hand0, coreNode 0, .msg, 1256, .handlerMessage hand0⟩] }).chip.net, f.src = handFrom hand0 ∧ f.dst = coreNode 0) ∧
    (s.chip.repairDue s.now 0 = none ∧ ((wT { repairs := [late] }).chip.core 0).repairs = [late] ∧ (s.chip.core 0).repairs = [] ∧ (wT {} [(6, { repair := some late })]).chip.repairDue 1000 0 = some (6, late) ∧ space late.va = 2 ∧
      ((wT { mbs := [(0, ready)] }).chip.core 0).nextMbox = some 0) ∧
    (hand.kind = .handler ∧ hand.noBudget = false ∧ hand.mop = none ∧ hand.pend.kind ≠ .save ∧ hand.st = .ready ∧ hand.stopReq = false ∧ hand.budgetAt + hand.budget * hand.perCycle ≤ s.now) ∧
    (addrCore 0 = 0 ∧ s.chip.heldByOther 0 0 0 128 = false ∧ s.chip.heldByOther 0 1 0 128 = true ∧ s.mem.wf = true ∧ task0.args.take 4 = [1, 2, 3, 4]) ∧
    (q.act = .rwi 3 ∧ nodeCore q.home = 0 ∧ (wT { bufs := [(0, { valid := true, gen := 1, len := 128, holder := 8 })] }).chip.remoteOk q 8 = none ∧ q.data.length = 8 ∧ q.host = false ∧ sram 0 0 ≤ q.pa ∧ ((s.chip.core 0).wt.get ({} : WTask) 3).armed = false) ∧
    ((s.chip.home (sliceNode 0 0)).watches = [] ∧ (hasPend .watch none ctx0).pend.id = 7 ∧ space D = 2) := by
  decide +kernel
/-- A unit with its header, and a group list at O + 0x1000 that names one more tile. -/
def unit0 : UnitCtx := { u := ⟨0, 1, 0, 0⟩, hedged := true, expv := 1, head := D, tx := 0, ty := 0, tz := 0, sealed := true }
def ctxU (u : UnitCtx) : Ctx := { ctxN with unit := some u, x := (30, 2) :: (29, 1) :: ctxN.x ++ [(31, O + 0x1080)] }
def wU (u : UnitCtx := unit0) (f : Ctx → Ctx := id) (g : Chip → Chip := id) : State :=
  world (f (ctxU u)) g [(sram 0 0x1000, 1), (sram 0 0x1020, (D + 0x80).toNat), (sram 0 0x1028, (O + 0x200).toNat), (sram 0 0x1030, 1)]
/-- A copy of that unit, resident in context 0, and a launch of two units with given unit records. -/
def copyRec : CopyRec := { copy := 0, die := 0, xk := 0, st := .resident, base := 0, len := 0, ntile := 0 }
def launchOf (l : List UnitRec) : Launch :=
  ⟨0, 1, 1, 0, 0, 0, 0, 0, 0, [], 0, 0, 0, 2, 1, 1, false, 0, 0, 0, 1, .eligible, l, [], [], 0, false, false, 0, true, 0, []⟩
def launch0 : Launch := launchOf [{ idx := 0, copies := [copyRec] }]
theorem witness_CommitInstructions :
    let s := wU
    let w := wN
    let ask := wU { unit0 with sealed := false }
    let far := wU { unit0 with sealed := false, head := O }
    let pc (k : PKind) (a : Option PAns) := wU unit0 (hasPend k a)
    let pin : Pin := ⟨D, sliceNode 0 0, 0x30000, D, false, true⟩
    let pins := wU unit0 fun x => { x with pins := List.replicate 8 pin }
    let ld := wU unit0 fun x => { x with ops := [{ id := 0, kind := .load, ctr := .ld }] }
    let st := wU unit0 fun x => { x with ops := [{ id := 0, kind := .store, ctr := .st }] }
    let lvl := wU unit0 id fun c => { c with vis := [(0, { en := true, pten := true, ptbase := 0x10000, levels := [{ kind := 1, id := 1, members := 1 }] })] }
    let lau := launchOf []
    let can := wU unit0 id fun c => { c with vis := [(0, { en := true, pten := true, ptbase := 0x10000, launches := [lau] })] }
    (∀ t ∈ [s, w, ask, far, pc .seal none, pc .commit none, pc .commit (some (.value 0 0)), pc .commit (some (.refused 6 0)), pins, ld, st, lvl, can], next t = true) ∧
    (∀ t ∈ [w, ask, far, pc .seal none], runs t false { x := [9] } = true) ∧ (∀ t ∈ [w, s, far, st, pc .commit none, pc .commit (some (.value 0 0)), pc .commit (some (.refused 6 0))], runs t false { x := [9, 24, 0], mem := true } = true ∧
      runs t false { x := [9, 24, 24], mem := true } = true ∧ runs t false { x := [9, 3, 24], mem := true } = true ∧ runs t false { x := [9, 24, 31], mem := true } = true) ∧
    (∀ r ∈ [1, 2, 5], runs s false { x := [9, r], mem := true, ctr := .ld } = true ∧ runs pins false { x := [9, r, 29], mem := true, ctr := .ld } = true ∧ runs ld false { x := [r] } = true) ∧
    (∀ t ∈ [s, lvl, can], runs t false { x := [9, 29, 29], ctr := .ld } = true) ∧
    (w.cx.unsealed = false ∧ ask.cx.unsealed = true ∧ isGlobal unit0.head = true ∧ isGlobal O = false ∧ s.cx.pend.kind ≠ .seal ∧ s.cx.pend.kind ≠ .commit) ∧
    (s.at_.checkOwn 0 (s.cx.getX 24) 128 128 = none ∧ s.cx.getX 0 = 0 ∧ s.at_.checkOwn 0 (s.cx.getX 3) 128 128 ≠ none ∧ st.cx.cnt .st ≠ 0 ∧ s.cx.cnt .st = 0 ∧ s.cx.getX 24 ≠ 0 ∧ s.at_.checkOwn 0 (s.cx.getX 31) 128 128 = none ∧
      groupList s.at_ 0 (rdN s.env s.at_ (sram s.ck 0x1000) 128) = some [{ head := D + 0x80, src := O + 0x200, expv := 1 }] ∧ groupList s.at_ 0 (rdN s.env s.at_ (sram s.ck 0x1080) 128) = none) ∧
    (s.cx.lostOver D 128 = none ∧ isGlobal D = true ∧ D.toNat % 128 = 0 ∧ (s.cx.getX 2).toNat % 128 ≠ 0 ∧ isGlobal (s.cx.getX 1) = false ∧ 2 ^ 32 ≤ (s.cx.getX 2).toNat ∧ (s.cx.getX 29).toNat < 2 ^ 32 ∧
      (pins.cx.pins.filter (·.rpin)).length = 8 ∧ s.cx.pins = [] ∧ ld.cx.cnt .ld ≠ 0 ∧ (wU unit0 fun x => { x with pins := [pin] }).cx.pins.find? (·.buf == D) = some pin) ∧
    (wkOk 1 1 = true ∧ wkOk (s.cx.getX 2) 1 = false ∧ (s.chip.vi 0).liveLevel 1 1 = false ∧ s.cx.unsealed = false ∧ (lvl.chip.vi 0).levels = [{ kind := 1, id := 1, members := 1 }] ∧ (lvl.chip.vi 0).launches = [] ∧
      (can.chip.vi 0).launches = [lau] ∧ lau.st ≠ .complete ∧ lau.cancelled = false ∧ lau.units = [] ∧ wkOk 0 1 = true) := by
  decide +kernel
def wE (u : UnitCtx) (f : Ctx → Ctx := id) : State := world (f { ctx0 with unit := some u }) fun c => { c with vis := [(0, { en := true, pten := true, ptbase := 0x10000, launches := [launch0] })] }
theorem witness_EndOfWork :
    let plain := wE { unit0 with hedged := false }
    let void := wE unit0 (hasPend .void none)
    (∀ t ∈ [plain, wE unit0, void, world (ctxOut .msg)], runs t false {} = true ∧ next t = true) ∧ (plain.cx.pend.kind ≠ .void ∧ (world (ctxOut .msg)).cx.cnt .msg ≠ 0 ∧ void.cx.pend.kind = .void ∧ void.cx.pend.ans = none) ∧
    (∀ k ∈ [Ctr.ld, .st, .cp, .mx, .msg], plain.cx.cnt k = 0) ∧ plain.cx.held = [] ∧ (plain.chip.core plain.ck).ghostsUsed ≤ 16 ∧ (plain.chip.core plain.ck).hslots = [] ∧
    (unit0.hedged = true ∧ unit0.published = false ∧ isGlobal unit0.head = true) ∧
    (plain.cx.kind = .unit ∧ (plain.chip.vi 0).launches = [launch0] ∧ launch0.lid = unit0.u.lid ∧ launch0.units = [{ idx := 0, copies := [copyRec] }] ∧ copyRec.copy = unit0.u.copy ∧ copyRec.xk = plain.chip.cur ∧
      launch0.retired + 1 < launch0.total ∧ plain.chip.dies = []) ∧
    (plain.chip.wr = [] ∧ (plain.chip.ctx 0).st ≠ .idle ∧ plain.chip.canEnd 0 = true ∧ (plain.chip.ctx 0).mop = none ∧ (wE unit0 fun x => { x with mop := some (mo 0) }).cx.mop ≠ none) := by
  decide +kernel
/-- A privileged context with addresses of images in page D: x11 of the save of context 1, x12 of a load, and the fault block at O + 0x4000. -/
def ctxP : Ctx := { ctxA with priv := true, x := ctxA.x ++ [(9, D + 0x1000), (10, D + 8), (11, D + 1), (12, D), (13, O + 0x4000), (14, 1), (15, O + 0x4080), (16, 0x4000), (17, O + 0x8000), (18, D + 2)] }
def loadOp : Op := { id := 4, kind := .load, ctr := .ld, refused := [⟨⟨5, 0, { va := D, op := 4, part := 5 }⟩, 8, 6, true⟩] }
/-- The image of context 1 in page D, and a block that is all zero but for PFCNT 1. -/
def wP (f : Ctx → Ctx := id) (g : Chip → Chip := id) : State :=
  world (f ctxP) (fun c => g { c with ctxs := c.ctxs ++ [(1, { ctx0 with st := .halt }), (2, {})] })
    [(0x30000, 1), (0x30008, ctxId 0 1), (0x30018, 7), (0x30030, 0), (sram 0 0x4030, 257)]
theorem witness_TrapAndContextInstructions :
    let s := wP
    let p (a : Option PAns) (k : PKind) := wP (hasPend k a)
    let idle (w : Bool) (u : Nat) := wP fun x => { x with wait := .idle u, idleWake := w }
    let upc := world { ctxA with x := (13, O + 0x4000) :: ctxA.x, inUpcall := true }
    (∀ t ∈ [s, wP fun x => { x with replay := [loadOp] }, idle true 2000, idle false 2000, idle false 900, upc], runs t false {} = true ∧ next t = true) ∧
    (s.cx.priv = true ∧ s.cx.ldPC = none ∧ s.cx.replay = [] ∧ s.cx.ops = [] ∧ loadOp.refused.map (fun r => (r.p.q.host, r.p.q.act, space r.p.q.va)) = [(false, .load, 2)] ∧ s.cx.cnt .ld < 63 ∧
      (∀ u ∈ [900, 2000], s.cx.wait ≠ .idle u) ∧ (idle true 2000).cx.wait = .idle 2000) ∧
    (∀ t ∈ [s, p none .inval, p (some (.value 0 900)) .inval, (wP (fun x => { (hasPend .inval (some (.value 0 900)) x) with vismax := 0 }) fun c => c)], runs t false { x := [2, 0] } = true ∧ runs t false { x := [2, 14] } = true ∧
      runs t false { x := [3, 0] } = true ∧ runs t false { x := [2, 2] } = true) ∧
    (s.cx.pend.kind ≠ .inval ∧ 2 ≤ (s.cx.getX 2).toNat ∧ (s.cx.getX 0 = 0 ∧ isGlobal (s.cx.getX 3) = false) ∧ isGlobal (s.cx.getX 2) = true ∧ (s.cx.getX 14).toNat = 1 ∧ s.now < 900 + 4100) ∧
    (∀ t ∈ [s, p none .save, p (some (.value 0 0)) .save], ∀ r ∈ [9, 10, 11, 12, 18], runs t false { x := [r], mem := true } = true) ∧
    (bits (s.cx.getX 10).toNat 3 9 ≠ 0 ∧ bits (s.cx.getX 12).toNat 3 9 = 0 ∧ (s.cx.getX 12).toNat % 8 = s.chip.cur ∧ (s.at_.ctx 2).st ≠ .halt ∧ (s.at_.ctx 1).st = .halt ∧ (s.at_.ctx 1).vi = s.cx.vi ∧
      s.at_.saveReady 1 = true ∧ (s.at_.ctx 1).tiles = [] ∧ (wP id fun c => { c with ctxs := [(0, ctxP), (1, { ctxOut .mx with st := .halt, ops := [{ id := 1, kind := .mma, ctr := .mx }] })] }).at_.saveReady 1 = false) ∧
    ((s.cx.getX 10).toNat % 4096 ≠ 0 ∧ (s.cx.getX 12).toNat % 4096 = 0 ∧ isGlobal (s.cx.getX 12) = true) ∧
    (∀ r ∈ [3, 13, 15, 17], runs upc false { x := [13], mem := true } = true ∧ runs s false { x := [r], mem := true } = true) ∧
    (permOk (s.cx.getX 3) = false ∧ permOk (s.cx.getX 13) = true ∧ permOk (s.cx.getX 13 + 16511) = true ∧ space (s.cx.getX 13 + 16511) = space (s.cx.getX 13) ∧ (s.cx.getX 13).toNat % 128 = 0 ∧ (s.cx.getX 5).toNat % 128 ≠ 0 ∧
      s.at_.inRun 0 (s.cx.getX 13) 16512 = true ∧ s.at_.inRun 0 (O + 0xF000) 16512 = false) := by
  decide +kernel
/-- A world of one page of 2 MiB with an image of context 1 at D, whose table entries the home has read. -/
def wI : State :=
  { mem := { cells := [(0, 1), (1, 0x20), (0x2000, 1), (0x2001, 0x40), (0x4000, 0x3D), (0x4002, 0x20), (0x4008, 1), (0x400C, 2), (0x210000, 1), (0x21000A, 2), (0x210018, 7)] }, now := 1000,
    chip := { ctxs := [(0, ctxP), (1, {}), (2, ctx0)], vis := [(0, { pten := true })], tan := { stage := 3 }, cores := [(0, { saved := [⟨7, 1, {}⟩] })],
              tlb := [⟨0, 1, 0x4000, 0x20003D, 2 ^ 33 + 1⟩, ⟨0, 1, 0x2000, 0x4001, 0⟩, ⟨0, 1, 0, 0x2001, 0⟩] } }
/-- The image in that world with the number of context `n` in its header. -/
def imageOf (n bound : Nat) : State := { wI with mem := (wI.mem.puts 0x21000A (leBytes 1 (2 * n))).puts 0x210023 (leBytes 1 bound) }
/-- Reads that leave the package as it is read the image line by line. -/
theorem readImage_fixed {e : Env} {c : Chip} {vi ck : Nat} {a : W64} : ∀ n, (∀ i < n, ∃ d, readRow e c true vi ck (a + w64 (128 * i)) 128 = .ok (c, d)) →
    ∃ d, readImage e c vi ck a n = (c, .ok d)
  | 0, _ => ⟨[], rfl⟩
  | n + 1, h => by
    obtain ⟨d, hd⟩ := readImage_fixed n fun i hi => h i (by omega)
    obtain ⟨r, hr⟩ := h n (by omega)
    refine ⟨d ++ r, ?_⟩
    unfold readImage at hd ⊢
    rw [List.range_succ, List.foldl_append, hd]
    simp [hr]
theorem bits_page {u v lo n : Nat} (h : u / 65536 = v / 65536) (hl : 16 ≤ lo) : bits (u % 2 ^ 50) lo n = bits (v % 2 ^ 50) lo n := by
  have key : ∀ w : Nat, w % 2 ^ 50 / 2 ^ lo = w / 65536 % 2 ^ 34 / 2 ^ (lo - 16) := fun w => by
    have e : 2 ^ lo = 65536 * 2 ^ (lo - 16) := by rw [show (65536 : Nat) = 2 ^ 16 from rfl, ← Nat.pow_add]; congr 1; omega
    rw [e, ← Nat.div_div_eq_div_mul]; congr 1; omega
  simp only [bits, key, h]
theorem walk_page {e : Env} {c : Chip} {vi : Nat} {u v : W64} (h : u.toNat / 65536 = v.toNat / 65536) : walk e c vi u = walk e c vi v := by
  have hp : u.toNat % 2 ^ 50 / 65536 = v.toNat % 2 ^ 50 / 65536 := by omega
  simp only [walk, walkStep, bits_page h (by decide : 16 ≤ 39), bits_page h (by decide : 16 ≤ 30), bits_page h (by decide : 16 ≤ 21), bits_page h (by decide : 16 ≤ 16), hp]
theorem walkReads_page {e : Env} {c : Chip} {vi u v : Nat} (h : u / 65536 = v / 65536) : ∀ (l : List (Nat × Nat)) (base : Nat), (∀ p ∈ l, 16 ≤ p.1) →
    walkReads e c vi (u % 2 ^ 50) base l = walkReads e c vi (v % 2 ^ 50) base l
  | [], _, _ => rfl
  | (lo, n) :: r, base, hl => by
    have hp : u % 2 ^ 50 / 65536 = v % 2 ^ 50 / 65536 := by omega
    have hb := bits_page (n := n) h (hl (lo, n) List.mem_cons_self)
    have ih := fun b => walkReads_page (e := e) (c := c) (vi := vi) h r b fun p hp => hl p (List.mem_cons_of_mem _ hp)
    unfold walkReads
    simp only [hb, hp, ih]
theorem noteWalk_page {e : Env} {c : Chip} {vi : Nat} {u v : W64} (h : u.toNat / 65536 = v.toNat / 65536) : c.noteWalk e vi u = c.noteWalk e vi v := by
  simp only [Chip.noteWalk, walkReads_page h [(39, 11), (30, 9), (21, 9), (16, 5)] _ (by decide)]
/-- In a SHARED page that is PIN, a read of a line, whose table entries the home has read, leaves the package as it is. -/
theorem line_read {e : Env} {c : Chip} {vi : Nat} {u v : W64} {l : Leaf} (h : u.toNat / 65536 = v.toNat / 65536) (hw : walk e c vi v = .ok l) (hn : c.noteWalk e vi v = c)
    (hl : bit l.w0 3 = true ∧ l.tgt = 0 ∧ l.pmode = 1 ∧ l.cls = 2) (hnet : c.net = []) (hbad : c.bad = []) (hal : u.toNat % 128 = 0) (hb : sliceOf c l 0 ≠ bridgeNode) (ck : Nat) :
    ∃ d, readRow e c true vi ck u 128 = .ok (c, d) := by
  have hs : ∀ p, sliceOf c l p = sliceOf c l 0 := fun p => by simp [sliceOf, hl.2.2.1]
  obtain ⟨h0, h1, h2, h3⟩ := hl
  have hx : xlate e c vi u 0 none none false = .ok c (sliceOf c l 0) (l.ppn + u.toNat % 2 ^ l.lg) l.lease false l.perm := by
    unfold xlate
    rw [walk_page h, hw]
    simp [noteWalk_page h, hn, h0, h1, h2, h3, hs]
  have hd : ∀ p, c.drainWb p = c := fun p => by
    unfold Chip.drainWb
    rw [hnet]
    show ({ c with net := [] } : Chip) = c
    rw [← hnet]
  have hx : c.reach e vi u 0 none none = .ok (c, sliceOf c l 0, l.ppn + u.toNat % 2 ^ l.lg) := by
    unfold Chip.reach
    rw [hx]
    simp [hb, hd]
  have hr : linesOf u 128 = [(0, u + w64 0, 128)] := by simp [linesOf, hal, List.range_succ]
  refine ⟨c.homeRead e vi (l.ppn + u.toNat % 2 ^ l.lg) 128, ?_⟩
  unfold readRow
  have hu : u + w64 0 = u := by simp [w64]
  rw [hr, hu]
  simp [Chip.engineReach, hx, Chip.badAt, hbad, hb]
theorem image_read {c : Chip} {vi ck : Nat} {e : Env} {l : Leaf} (hw : walk e c vi D = .ok l) (hn : c.noteWalk e vi D = c) (hl : bit l.w0 3 = true ∧ l.tgt = 0 ∧ l.pmode = 1 ∧ l.cls = 2)
    (hnet : c.net = []) (hbad : c.bad = []) (hb : sliceOf c l 0 ≠ bridgeNode) {n : Nat} (h : n ≤ 224) : ∃ d, readImage e c vi ck D n = (c, .ok d) := by
  refine readImage_fixed n fun i hi => ?_
  have e : (D + w64 (128 * i)).toNat = D.toNat + 128 * i := by rw [BitVec.toNat_add, show D.toNat = 0x8000000010000 from rfl, w64, BitVec.toNat_ofNat]; omega
  refine line_read ?_ hw hn hl hnet hbad ?_ hb ck <;> rw [e, show D.toNat = 0x8000000010000 from rfl] <;> omega
/-- Of that image, CTXLD reads every line; of its header it takes context 1, and of one for context 0 itself. -/
theorem witness_TrapAndContextInstructions_load : ∀ n ∈ [0, 1], let s := imageOf n 0
    runs s false { x := [12], mem := true } = true ∧ next s = true ∧ s.cx.priv = true ∧ s.cx.getX 12 = D ∧ ∃ h sv d, readImage s.env s.at_ s.cx.vi s.ck D 1 = (s.at_, .ok h) ∧
      imageHeader s.at_ s.chip.cur h = some (n, sv, 0, 0, 0) ∧ (n = s.chip.cur ∨ (s.at_.ctx n).st = .idle) ∧ sv.c.held = [] ∧ readWhole s.env s.at_ s.cx.vi s.ck D 0 = (s.at_, .ok d) := by
  intro n hn
  have hd : runs (imageOf n 0) false { x := [12], mem := true } = true ∧ next (imageOf n 0) = true ∧ (imageOf n 0).cx.priv = true ∧ (imageOf n 0).cx.getX 12 = D ∧
    (n = (imageOf n 0).chip.cur ∨ ((imageOf n 0).at_.ctx n).st = .idle) ∧
    (match readImage (imageOf n 0).env (imageOf n 0).at_ 0 0 D 1 with | (_, .ok h) => decide (imageHeader (imageOf n 0).at_ 0 h = some (n, ⟨7, 1, {}⟩, 0, 0, 0)) | _ => false) = true ∧
    (imageOf n 0).at_.noteWalk (imageOf n 0).env 0 D = (imageOf n 0).at_ := by
    fin_cases hn <;> decide +kernel
  obtain ⟨h1, h2, h3, h4, h5, h6, h8⟩ := hd
  have hv : (imageOf n 0).cx.vi = 0 := by fin_cases hn <;> decide +kernel
  have hk : (imageOf n 0).ck = 0 := by fin_cases hn <;> decide +kernel
  have hw : walk (imageOf n 0).env (imageOf n 0).at_ 0 D = .ok ⟨0x4000, 21, 0x20003D, 2 ^ 33 + 1⟩ := by
    fin_cases hn <;> rfl
  have rd := fun {k : Nat} (hk : k ≤ 224) => image_read (ck := 0) hw h8 (by decide) (by fin_cases hn <;> rfl) (by fin_cases hn <;> rfl) (by fin_cases hn <;> decide +kernel) hk
  obtain ⟨h, hh⟩ := rd (k := 1) (by decide)
  obtain ⟨d, hd⟩ := rd (k := 224) (by decide)
  rw [hh] at h6
  dsimp only
  rw [hv, hk]
  refine ⟨h1, h2, h3, h4, h, ⟨7, 1, {}⟩, d ++ leBytes 16384 0 ++ leBytes 16384 0 ++ leBytes 16384 0 ++ leBytes 16384 0 ++ leBytes 16384 0 ++ leBytes 16384 0 ++ leBytes 16384 0 ++ leBytes 16384 0,
    hh, ?_, h5, rfl, ?_⟩
  · have e : (imageOf n 0).chip.cur = 0 := by fin_cases hn <;> decide +kernel
    rw [e]; exact of_decide_eq_true h6
  · unfold readWhole
    rw [hd]
    simp [List.range_succ, bit]
/-- A refused load of page D in context 0, with its operation still out, kept for replay, and answered. -/
def qRef : Req := { src := 0, op := 4, part := 5, va := D, n := 8, home := sliceNode 0 0 }
def ref8 : Refused := ⟨qRef, 8, 6⟩
def rpart : RPart := ⟨⟨5, 0, qRef⟩, 8, 6, false⟩
def opOut : Op := { id := 4, kind := .load, ctr := .ld, dst := .x 3 8 false, parts := [⟨5, 0, qRef⟩] }
def opRef : Op := { opOut with parts := [], refused := [rpart] }
def ctxR : Ctx := { ctxA with upcallvec := O + 0x4000, replay := [opRef], fmt := ctxF.fmt }
theorem witness_FaultEvents :
    let s := w0
    let up := world ctxR (onCore { notices := [⟨6, 0, none, none⟩] })
    let no := world { ctxR with upcallvec := 0 }
    let v : Ctx := { ctx0 with inTrap := true, priv := true, pc := ctx0.trapvec }
    (s.chip.wr = [] ∧ s.cx.fmt = none ∧ (world ctxF).cx.fmt = some (encode (.fmt 2 3 3 1)) ∧ fmtLegal (encode (.fmt 2 3 3 1)) = true ∧ fmtLegal 0x04221800 = false ∧
      (world { ctx0 with fmt := some 0x04221800 }).cx.fmt = some 0x04221800) ∧
    ((s.cx.inTrap && s.cx.priv && s.cx.pc == s.cx.trapvec) = false ∧ ((world v).cx.inTrap && (world v).cx.priv && (world v).cx.pc == (world v).cx.trapvec) = true) ∧
    ((s.chip.die (hash21 D.toNat)).fbcount < 1024 ∧ 1024 ≤ ((world ctx0 fun c => { c with dies := (List.range 8).map fun i => (i, { fbcount := 1024 }) }).chip.die (hash21 D.toNat)).fbcount) ∧
    ((s.chip.ctx 1).st = .idle ∧ s.cx.st = .ready ∧ s.cx.mop = none ∧ s.cx.pend.kind ≠ .save ∧ s.cx.ending = none ∧ s.cx.stopReq = false) ∧
    (Act.engine ref8.q.act = false ∧ ref8.q.op ≠ 0 ∧ (world { ctxA with ops := [opOut] }).cx.ops = [opOut] ∧ opOut.id = ref8.q.op ∧ opOut.parts = [⟨ref8.q.part, 0, ref8.q⟩] ∧ opOut.refused = [] ∧ s.cx.replay = [] ∧
      (s.chip.core (nodeCore ref8.q.home)).heldLoads = [] ∧ (s.chip.core 0).notices.length < 64 ∧ (world (hasPend .lock none ctx0)).cx.pend.id = 7) ∧
    (up.cx.earliest = some rpart ∧ rpart.code = 8 ∧ up.chip.wantsUpcall 0 = true ∧ no.cx.earliest = some rpart ∧ no.chip.wantsUpcall 0 = false ∧ up.cx.stopReq = false) ∧
    (up.chip.upcallBlock 0 = some 0x4000 ∧ up.cx.replay = [opRef] ∧ up.cx.ops = [] ∧ opRef.kind = .load ∧ opRef.refused = [rpart] ∧ up.chip.protect 0 0x4000 16512 = none ∧ up.cx.pendPfx = false ∧
      (up.chip.home (coreNode 0)).waddrs = [] ∧ (∀ n ∈ (up.chip.core 0).notices, n.got = none) ∧ up.mem.wf = true) ∧
    ((∀ n ∈ (up.chip.core 0).notices, n.token ≠ 7) ∧ ((world ctx0 (onCore { notices := [⟨6, 0, some 0x4000, none⟩] })).chip.core 0).notices = [⟨6, 0, some 0x4000, none⟩] ∧
      ((s.chip.core 0).wt.get ({} : WTask) 0).armed = false) := by
  decide +kernel
theorem witness_StopAndSwapEvents :
    let s := w0
    let halt : Ctx := { ctx0 with st := .halt, was := .ready, haltCtl := true }
    let die (d : Die) := world ctx0 fun c => { c with dies := [(0, d)] }
    let stands (z : Ctx) : Prop := (z.st = .ready ∨ z.st = .stall) ∧ z.mop = none ∧ z.hasRefused = false ∧ z.upcallDue = false ∧ z.hbudgetDue 1000 = false ∧ z.repair = none
    let all (x : Ctx) := world x fun c => { c with ctxs := (List.range 8).map fun i => (i, x) }
    let tlb := world ctx0 fun c => { c with vis := [(0, { tlbBusy := true, tlbLeft := 1 })] }
    let two := world (hasPend .inval none ctx0)
    let own : L1Line := ⟨0, D, coreNode 1, 0x30000, .owned true, List.replicate 128 7, 3⟩
    (s.chip.wr = [] ∧ (s.chip.die 0).ctxWait = false ∧ ((die { ctxWait := true }).chip.die 0).ctxWait = true) ∧ (stands (s.chip.ctx 0) ∧ (s.chip.ctx 1).st = .idle ∧ (s.chip.ctx 0).shadow = none ∧ s.now = 1000 ∧ (s.chip.ctx 0).pc.toNat % 4 = 0 ∧ s.chip.hopping 0 = false ∧ s.chip.hopping 1 = false ∧
      ({ ctxP with priv := true } : Ctx).priv = true ∧ ({ ctx0 with mop := some (mo 0) } : Ctx).mop ≠ none) ∧
    ((∀ i < 8, stands ((all ctx0).chip.ctx i)) ∧ ∀ i < 8, ((all halt).chip.ctx i).stopped = true) ∧
    (halt.haltPwr = false ∧ halt.haltSwap = false ∧ halt.waiting = none ∧ halt.pend.kind ≠ .waddr ∧ halt.replayDue = false ∧ ({ halt with haltSwap := true } : Ctx).haltSwap = true) ∧
    ((s.chip.vi 0).tlbActive s.now = false ∧ (tlb.chip.vi 0).tlbActive tlb.now = true ∧ D.toNat / 2 ^ 63 = 0 ∧ (2 ^ 63 : W64).toNat / 2 ^ 63 = 1) ∧
    (s.chip.cores = [] ∧ s.chip.net = [] ∧ two.cx.pend.kind = .inval ∧ two.cx.pend.left = 1 ∧ 2 ≤ ({ two.cx.pend with left := 2 } : Pend).left) ∧
    ((world ctx0 (onCore { l1 := [own] })).chip.cores = [(0, { l1 := [own] })] ∧ own.kind = .owned true ∧ own.data.length = 128 ∧ s.chip.net = [] ∧ s.mem.wf = true) ∧
    ((s.chip.die 0).swap = none ∧ bits (2 ^ 16 : W64).toNat 16 8 = 1 ∧ bits (2 ^ 16 : W64).toNat 0 8 = 0 ∧ 191 < bits (192 : W64).toNat 0 8 ∧ bits (0 : W64).toNat 8 2 * 192 + bits (0 : W64).toNat 0 8 = 0) ∧
    ((die { swap := some ⟨0, 1⟩ }).chip.die 0).swap = some ⟨0, 1⟩ ∧
    ((world halt fun c => { c with dies := [(0, { swap := some ⟨0, 1⟩ })] }).chip.swapReady 0 = true) ∧ (∀ v < 3, (v : Nat) % 4 ≠ 3) ∧
    (({ (die { splitPend := true, splitNew := 1 }).chip with ctxs := [] } : Chip).splitReady 0 = true ∧ s.chip.splitReady 0 = false) := by
  decide +kernel
/-- Page D under another entry, a load of it, and one of the own scratchpad. -/
def mapD (a b : Nat) (f : Chip → Chip := id) : State := world ctxA f [(0x1C010, a), (0x1C018, b)]
def qLoad : Req := { src := 0, op := 4, part := 5, va := D, n := 8, home := sliceNode 0 0, pa := 0x30000, cached := true }
def qOwn : Req := { qLoad with va := O + 0x800, home := coreNode 0, pa := sram 0 0x800 }
def lineD (k : L1Kind) : L1Line := ⟨0, D, sliceNode 0 0, 0x30000, k, List.replicate 128 0, 3⟩
theorem witness_MemoryEvents :
    let die := hash21 D.toNat
    let onDie (d : Die) := mapD 0x3001D (2 ^ 33 + 1) fun c => { c with dies := [(die, d)] }
    let s := mapD 0x3001D (2 ^ 33 + 1)
    let r : Reclass := ⟨0, D, 65536, 0x1C010, [], none⟩
    let f : FbEnt := { token := 6, valid := true, vi := 0, va := D, side := 0, ck := some 0, migr := false, ackAt := 0 }
    let walked (s : State) (a : W64) : Option Leaf := match walk s.env s.chip 0 a with | .ok l => some l | .error _ => none
    (s.chip.wr = [] ∧ qLoad.host = false ∧ qLoad.src < 49152 ∧ (onDie { reclass := [r] }).chip.die die = { reclass := [r] } ∧ r.page.toNat ≤ qLoad.va.toNat ∧ qLoad.va.toNat < r.page.toNat + r.size ∧ (s.chip.die die).reclass = []) ∧
    (walked (mapD 0x30015 (2 ^ 33 + 1)) D = some ⟨0x1C010, 16, 0x30015, 2 ^ 33 + 1⟩ ∧ bit 0x30015 3 = false ∧ bit 0x3001D 3 = true ∧
      walked (mapD (0x3001D + 2 ^ 10) (2 ^ 33 + 1)) D = some ⟨0x1C010, 16, 0x3001D + 2 ^ 10, 2 ^ 33 + 1⟩ ∧ (⟨0x1C010, 16, 0x3001D + 2 ^ 10, 0⟩ : Leaf).tgt = 1 ∧ s.chip.linkGone (extHost ((⟨0x1C010, 16, 0x3001D + 2 ^ 10, 2 ^ 33 + 1⟩ : Leaf).ext 0)) = false ∧ s.chip.net = [] ∧
      (mapD (0x3001D + 2 ^ 10) (2 ^ 33 + 1) fun c => { c with ports := (List.range 24).map fun i => (i, { down := true }) }).chip.linkGone (extHost ((⟨0x1C010, 16, 0x3001D + 2 ^ 10, 2 ^ 33 + 1⟩ : Leaf).ext 0)) = true ∧
      walked s D = some ⟨0x1C010, 16, 0x3001D, 2 ^ 33 + 1⟩ ∧ (⟨0x1C010, 16, 0x3001D, 2 ^ 33 + 1⟩ : Leaf).cls = 2 ∧ walked (mapD 0x3001D 1) D = some ⟨0x1C010, 16, 0x3001D, 1⟩ ∧ (⟨0x1C010, 16, 0x3001D, 1⟩ : Leaf).pmode = 1 ∧
      (⟨0x1C010, 16, 0x3001D, 1⟩ : Leaf).cls = 0 ∧ qLoad.cached = true ∧ s.chip.tlb = [] ∧ s.mem.wf = true ∧ walked (mapD 0x3001D (1 + 2 ^ 32 + 2 ^ 34)) D = some ⟨0x1C010, 16, 0x3001D, 1 + 2 ^ 32 + 2 ^ 34⟩ ∧
      (⟨0x1C010, 16, 0x3001D, 1 + 2 ^ 32 + 2 ^ 34⟩ : Leaf).cls = 1 ∧ (⟨0x1C010, 16, 0x3001D, 1 + 2 ^ 32 + 2 ^ 34⟩ : Leaf).owner = 1 ∧ walked (mapD 0 0) D = none ∧ (s.chip.die die).fbcount < 1024 ∧
      1024 ≤ ((onDie { fbcount := 1024 }).chip.die die).fbcount) ∧
    (nodeIsCore qLoad.home = false ∧ (mapD 0 0 fun c => { c with bad := [0x600] }).chip.badAt 0x30000 128 = true ∧ s.chip.badAt 0x30000 128 = false ∧ 0x400 ≤ nodeEp qLoad.home ∧ nodeEp qLoad.home < 0x600 ∧ qLoad.refill = false) ∧
    (nodeIsCore qOwn.home = true ∧ s.chip.remoteOk qOwn qOwn.n = none ∧ (mapD 0 0 fun c => { c with bad := [qOwn.pa / 128] }).chip.badAt qOwn.pa qOwn.n = true ∧ s.chip.badAt qOwn.pa qOwn.n = false ∧
      s.chip.groupOf qOwn = [(5, 0, 0x800, 8)] ∧ (s.chip.core 0).fullOver 0x800 8 = true ∧ (mapD 0 0 (onCore { empty := [0x10] })).chip.groupFull qOwn = false ∧ s.chip.remoteOk { qOwn with src := 8 } 8 = some 6) ∧
    ((mapD 0 0 fun c => { c with ctxs := [(0, { ctxA with ops := [{ id := 4, kind := .load, ctr := .ld, dst := .x 3 8 false, parts := [⟨5, 0, qLoad⟩] }] })] }).cx.ops = [{ id := 4, kind := .load, ctr := .ld, dst := .x 3 8 false, parts := [⟨5, 0, qLoad⟩] }] ∧
      s.cx.ops = [] ∧ s.chip.storesOut 0 0 D = false ∧ s.chip.net = [] ∧ (s.chip.home (sliceNode 0 0)).watches = [] ∧ (s.chip.home (sliceNode 0 0)).waddrs = [] ∧ (∀ j < 8, s.chip.tags.get 0 ((0x30000 + j) / 128) = 0) ∧
      768 ≤ nodeEp (sliceNode 0 0) ∧ (s.chip.home (sliceNode 0 0)).lmax.length < 1024 ∧ (sliceNode 0 0) ≠ bridgeNode ∧ sram (nodeCore qOwn.home) 0 ≤ qOwn.pa) ∧
    (((mapD 0 0 (onCore { l1 := [lineD (.leased 2000)] })).chip.core 0).l1 = [lineD (.leased 2000)] ∧ lineOf D = D ∧ inPage 0 D 65536 (lineD (.owned true)) = true ∧ ((onDie { reclass := [r] }).chip.die die).reclass = [r] ∧ r.reqs = [] ∧
      bits (leNat ((List.range 8).map fun j => (mapD 0x3001D (1 + 2 ^ 32)).mem.read (0x1C018 + j))) 32 2 = 1) ∧
    (((onDie { fbents := [(0, f)] }).chip.die die).fbents = [(0, f)] ∧ f.valid = true ∧ f.token = bits (6 : W64).toNat 0 32 ∧ f.ck = some 0 ∧ (s.chip.die die).fbents = []) ∧
    ((handleAct wH.chip .hchk (w64 (leNat (leBytes 8 (handleOf 0 0 1).toNat))) 0).2 = some (w64 (128 * 2 ^ 32)) ∧ (handleAct wH.chip .hchk (handleOf 0 0 1) 0).1.wr = [] ∧
      handleAct wH.chip (.hgive 1) (handleOf 0 0 2) 0 = (wH.chip, none) ∧ (hasPend .waddr none ctx0).pend.id = 7) := by
  decide +kernel
/-- A copy in the engine of core 0. -/
def cpE (r : CpRegs) (f : CopyE → CopyE := id) : CopyE := f { copy0 with r := r }
def wCp (e : CopyE) (f : Chip → Chip := id) : State := world { ctxA with ops := [{ id := 4, kind := .copy 5, ctr := .cp }], cpStat := [⟨5, 1, 0, 0⟩] } fun c => f (onCore { copies := [e] } c)
theorem witness_CopyEvents :
    let stepping (e : CopyE) : Prop := e.running = true ∧ e.out = [] ∧ e.word = false ∧ e.moved = false ∧ (e.r.ven = true → e.row < e.r.rows)
    let addr (e : CopyE) : W64 := e.r.src + w64 e.row * e.r.stra + w64 (e.off + e.buf.length)
    let full := cpE cp0 fun e => { e with buf := List.replicate 128 7 }
    let half := cpE { cp0 with shape := 64 + 2 * 2 ^ 24, strb := 64 } fun e => { e with buf := List.replicate 64 7 }
    let far := cpE { cp0 with dst := O + 2 ^ 37 } fun e => { e with buf := List.replicate 128 7 }
    let glob := cpE { cp0 with dst := D + 0x1000 } fun e => { e with buf := List.replicate 128 7 }
    let cond := cpE { cp0 with dst := O + 0x180, ver := 2 ^ 32 } fun e => { e with row := 1, data := List.replicate 128 7 }
    let s := wCp copy0
    (s.chip.wr = [] ∧ (s.chip.core 0).copies = [copy0] ∧ coreOf copy0.ctx = 0 ∧ s.mem.wf = true ∧ s.chip.endReason 0 = none ∧ s.chip.copyHeld copy0 = false ∧ s.chip.copyHeld { copy0 with after := [4] } = true ∧ copy0.running = true) ∧
    (stepping copy0 ∧ copy0.buf.length < copy0.valid ∧ space (addr copy0) = 2 ∧ space (addr (cpE { cp0 with src := O + 0x400 })) = 1 ∧ copy0.valid = 128 ∧ s.chip.spParse (O + 0x400) 128 = some (0, 0x400) ∧
      s.chip.badAt (sram 0 0x400) 128 = false ∧ (wCp copy0 fun c => { c with bad := [(sram 0 0x400) / 128] }).chip.badAt (sram 0 0x400) 128 = true ∧ copy0.touched = [] ∧ copy0.status = 0 ∧
      s.chip.spParse (O + 2 ^ 37) 128 = some (1, 0) ∧ s.chip.spParse (O + 2 ^ 37) 1 = some (1, 0)) ∧
    (s.chip.runCheck copy0 copy0.r.src (addr copy0) 128 = none ∧ s.chip.runCheck copy0 (O + 0x400) (O + 0x400) 128 = none ∧ s.chip.runCheck full full.r.dst full.dstAt 128 = none ∧ s.chip.runCheck half half.r.dst half.dstAt 64 = none ∧
      s.chip.runCheck far far.r.dst far.dstAt 128 = none ∧ s.chip.runCheck glob glob.r.dst glob.dstAt 128 = none ∧ permOk 0 = false ∧ s.chip.runCheck copy0 copy0.r.src 0 128 = some 9 ∧ s.chip.isOff 0 = false) ∧
    (stepping full ∧ full.r.ven = false ∧ full.buf.length = full.valid ∧ full.r.cols = 0 ∧ space full.dstAt = 1 ∧ (full.buf ++ List.replicate (full.len - full.valid) full.r.fill).length = 128 ∧ s.chip.spParse full.dstAt 128 = some (0, 0) ∧
      full.last = true ∧ half.last = false ∧ half.buf.length = half.valid ∧ s.chip.spParse half.dstAt 64 = some (0, 0) ∧ (s.chip.home (coreNode 0)).waddrs = [] ∧ (s.chip.core 0).heldLoads = [] ∧
      stepping far ∧ s.chip.spParse far.dstAt 128 = some (1, 0) ∧ stepping glob ∧ space glob.dstAt = 2) ∧
    Act.engine (.cpwrite none true) = true ∧
    (cond.r.ven = true ∧ cond.r.rows = 1 ∧ cond.row = 1 ∧ cond.data.length = cond.r.rlen ∧ s.chip.spParse (cond.r.dst - 128) 4 = some (0, 0x100) ∧ s.chip.spParse cond.r.dst cond.r.rlen = some (0, 0x180) ∧
      s.chip.badAt (sram 0 0x100) 4 = false ∧ leNat ((List.range 4).map fun i => s.mem.read (sram 0 0x100 + i)) = bits cond.r.ver.toNat 0 32 ∧ (0 : Nat) ≠ bits ({ cond.r with ver := 2 ^ 32 + 1 } : CpRegs).ver.toNat 0 32) ∧
    (copy0.vt ≤ s.now ∧ ({ cp0 with done := 0 } : CpRegs).done = 0 ∧ space cp0.done = 1 ∧ s.chip.spParse cp0.done 8 = some (0, 0x100) ∧ copy0.id < 2 ^ 16 ∧ copy0.status < 256 ∧ cp0.clipped < 2 ^ 39 ∧ space ({ cp0 with done := D } : CpRegs).done = 2 ∧
      s.cx.cpStat.find? (·.id == copy0.id) = some ⟨5, 1, 0, 0⟩) := by
  decide +kernel
theorem witness_HostRegisterEvents :
    let s := w0
    let wrt := world ctx0 fun c => { c with net := [⟨bridgeNode, homeNode 0, .req, 0, .translate { host := true, act := .store }⟩] }
    let q (k : Queue) := world ctx0 fun c => { c with queues := [(0, k)] }
    let i (v : Vi) := world ctx0 fun c => { c with vis := [(0, { en := true }), (1, v)] }
    (s.chip.wr = [] ∧ wrt.chip.hostWrites = true ∧ s.chip.hostWrites = false ∧ s.chip.slotQueue 0 0 = some 0 ∧ s.chip.slotQueue 1 0 = none) ∧
    ((let k := (q { en := true }).chip.queue 0
      k.en = true ∧ ((BitVec.ofNat 32 64 - k.qhead).toNat ≤ 2 ^ (k.qsz + 6) ∧ (BitVec.ofNat 32 64 - k.qtail).toNat < 2 ^ 31) ∧ ¬ (BitVec.ofNat 32 65 - k.qhead).toNat ≤ 2 ^ (k.qsz + 6)) ∧ (s.chip.queue 0).en = false ∧ (s.chip.queue 0).run = false ∧
      ((q { run := true }).chip.queue 0).run = true) ∧
    (bit (1 : W64).toNat 0 = true ∧ bits (1 : W64).toNat 16 4 ≤ 10 ∧ bits (1 : W64).toNat 12 4 ≤ 10 ∧ (s.chip.queue 0).qbase.toNat % 64 = 0 ∧ (s.chip.queue 0).cbase.toNat % 16 = 0 ∧ ¬ bits (0xB0001 : W64).toNat 16 4 ≤ 10 ∧ bit (0xB0001 : W64).toNat 0 = true ∧
      bit (0 : W64).toNat 0 = false ∧ ((q { en := true, owed := [⟨1, 0, 0, 0, none, 0, []⟩] }).chip.queue 0).owed ≠ [] ∧ ((q { en := true, fence := some (3, true) }).chip.queue 0).fence = some (3, true) ∧
      ((q { en := true }).chip.queue 0).owed = [] ∧ ((q { en := true }).chip.queue 0).open_ = [] ∧ ((q { en := true }).chip.queue 0).hm = none ∧ ((q { en := true }).chip.queue 0).fence = none) ∧
    (((i {}).chip.vi 1).en = false ∧ ((i {}).chip.vi 1).quiesced = true ∧ ((i { quiesced := false }).chip.vi 1).quiesced = false ∧ ((i { en := true }).chip.vi 1).launches = [] ∧ ((i { en := true }).chip.vi 1).levels = [] ∧
      ((i { keyWait := true }).chip.vi 1).keyWait = true ∧ (i { quiesced := false }).chip.tornDown 1 = true ∧ (i {}).chip.tornDown 1 = false ∧ s.mem.wf = true ∧ s.chip.tags.all (fun g => g.2 != 1 + 1 || g.1 != 0 / 128) = true) ∧
    (hostEvent 0x40000 5 = some (.victl 0 5) ∧ (0 : Nat) < 4096 ∧ (63 : Nat) < 64 ∧ (15 : Nat) < 16 ∧ (7 : Nat) < 8 ∧ (s.chip.die 7).ctxPend = 0 ∧ 1 ≤ bits (2 ^ 24 : W64).toNat 24 3 ∧ bits (3 * 2 ^ 24 : W64).toNat 24 3 ≤ 3 ∧
      ((world ctx0 fun c => { c with dies := [(7, { ctxPend := 1 })] }).chip.die 7).ctxPend ≠ 0 ∧ (s.chip.die 7).avpend = 0 ∧ 1 ≤ (5 : W64).toNat % 8 ∧ (5 : W64).toNat % 8 ≤ 5) := by
  decide +kernel
/-- Queue 0 with one entry to take, whose words are given, and further words of memory. -/
def q0 : Queue := { en := true, run := true, qbase := D, cbase := D + 0x1000, qtail := 1 }
def wQ (ws : List Nat) (l : List (Nat × Nat) := []) (q : Queue := q0) (v : Vi := {}) (f : Chip → Chip := id) : State :=
  world {} (fun c => f { c with queues := [(0, q)], vis := [(0, { v with en := true, keyv := true, quiesced := false, pten := true, ptbase := 0x10000 })] })
    ((List.range ws.length).map (fun i => (0x30000 + 8 * i, ws.getD i 0)) ++ l)
/-- The entry as bytes. -/
def entD (ws : List Nat) : List Byte := (ws ++ List.replicate (8 - ws.length) 0).flatMap (leBytes 8)
/-- The entry is there to be taken. -/
def takes (s : State) (ws : List Nat) : Bool := s.chip.queueReady 0 && (match s.chip.entryAt s.env 0 with | some (_, d) => decide (d = entD ws) | none => false)
/-- A launch record at 0x30200 of one unit, its descriptors at D + 0x300. -/
def launchRec (lid geom gx : Nat) : List (Nat × Nat) :=
  [(0x30200, lid), (0x30208, gx), (0x30218, G.toNat), (0x30220, (D + 0x300).toNat), (0x30228, (D + 0x400).toNat), (0x30248, geom)]
theorem witness_QueueEvents_entries :
    let n := 2 ^ 32 * 7
    let lvl : Level := { kind := 1, id := 9, members := 1 }
    let v : Vi := { levels := [lvl] }
    (let s := wQ [0] [] { q0 with qbase := D + 0x20000 }
     s.chip.wr = [] ∧ s.chip.queueReady 0 = true ∧ (s.chip.entryAt s.env 0).isNone = true ∧ s.chip.engineHeld s.env 0 (s.chip.queue 0).entryVa 0 = false) ∧
    (let s := wQ [0] [(0x1C018, 1 + 2 ^ 32 + 2 ^ 34)]
     s.chip.queueReady 0 = true ∧ s.chip.engineHeld s.env 0 (s.chip.queue 0).entryVa 0 = true) ∧
    (let s := mapD 0x3001D (1 + 2 ^ 32 + 2 ^ 34)
     s.chip.engineHeld s.env 0 D 0 = true) ∧ ({ levels := [lvl] } : Vi).liveLevel 1 9 = true ∧ (0x22 : Nat) ≠ heldCode ∧
    (∀ w ∈ [[n], [n + 6], [n + 1 + 2 ^ 9], [n + 2 + 2 ^ 9], [n + 3 + 2 ^ 9], [n + 4 + 2 ^ 9], [n + 5, 1], [n + 1, 8], [n + 2, 0, 2 ^ 8 + 9 * 2 ^ 32], [n + 2, 0, 2 ^ 8], [n + 2, 8, 2 ^ 16 + 2 ^ 8], [n + 2 + 256, 0, 2 ^ 8 + 1 + 9 * 2 ^ 32],
        [n + 3, 0, 2 ^ 8 + 9 * 2 ^ 32], [n + 4, 2], [n + 4, G.toNat, 192], [n + 4, G.toNat, 191, 5, 6], [n + 5], [n + 5 + 256]], takes (wQ w) w = true) ∧
    (eOpc (entD [n]) = 0 ∧ 5 < eOpc (entD [n + 6]) ∧ ¬ onlyFields (entD [n + 1 + 2 ^ 9]) (eHead ++ [(64, 52)]) = true ∧ ¬ onlyFields (entD [n + 5, 1]) (eHead ++ []) = true ∧
      (let d := entD [n + 1, 8]
       eOpc d = 1 ∧ onlyFields d (eHead ++ [(64, 52)]) = true ∧ field d 64 52 % 128 ≠ 0)) ∧
    (let p (w : List Nat) := onlyFields (entD w) (eHead ++ [(64, 52), (160, 32), (144, 16), (136, 2), (128, 1)])
     let d := entD [n + 2, 0, 2 ^ 8 + 1 + 9 * 2 ^ 32]
     p [n + 2, 0, 2 ^ 8 + 9 * 2 ^ 32] = true ∧ p [n + 2, 8, 2 ^ 16 + 2 ^ 8] = true ∧ p [n + 2, 0, 2 ^ 8 + 1 + 9 * 2 ^ 32] = true ∧ field (entD [n + 2]) 136 2 = 0 ∧ field (entD [n + 2, 8, 2 ^ 16 + 2 ^ 8]) 64 52 % 128 ≠ 0 ∧
       field d 144 16 = 0 ∧ field d 136 2 = 1 ∧ field d 128 1 = 1 ∧ field d 160 32 = 9 ∧ field (entD [n + 2, 0, 2 ^ 8 + 9 * 2 ^ 32]) 128 1 = 0 ∧ ({} : Vi).liveLevel 1 9 = false ∧ v.levels = [lvl] ∧ lvl.done ≠ lvl.members) ∧
    (let d := entD [n + 3, 0, 2 ^ 8 + 9 * 2 ^ 32]
     onlyFields d (eHead ++ [(160, 32), (136, 2)]) = true ∧ field d 136 2 = 1 ∧ field d 160 32 = 9 ∧ ({} : Vi).knows 1 9 = false ∧ ({ levels := [{ lvl with complete := true }] } : Vi).knows 1 9 = true ∧
       ({ levels := [{ lvl with complete := true }] } : Vi).liveLevel 1 9 = false) ∧
    (let p (w : List Nat) := onlyFields (entD w) (eHead ++ [(64, 52), (138, 3), (136, 2), (128, 8), (192, 64), (256, 64)])
     p [n + 4, 2] = true ∧ field (entD [n + 4, 2]) 64 52 % 4 ≠ 0 ∧ p [n + 4, G.toNat, 192] = true ∧ 191 < field (entD [n + 4, G.toNat, 192]) 128 8 ∧ isGlobal (w64 (field (entD [n + 4, G.toNat, 192]) 64 52)) = true ∧
       p [n + 4, G.toNat, 191, 5, 6] = true ∧ field (entD [n + 4, G.toNat, 191, 5, 6]) 128 8 ≤ 191) ∧
    (onlyFields (entD [n + 5]) (eHead ++ []) = true ∧ eCpl (entD [n + 5 + 256]) = true ∧ eCpl (entD [n + 5]) = false ∧ q0.open_ = [] ∧ (({ q0 with fence := some (7, true) } : Queue).fence = some (7, true))) := by
  decide +kernel
theorem witness_QueueEvents_launch :
    let w := [7 * 2 ^ 32 + 1, (D + 0x200).toNat]
    let at_ (s : State) : Option (Chip × Nat × Nat) := (match s.chip.entryAt s.env 0 with | some (m, _) => some (m.modQueue 0 fun k => { k with qhead := k.qhead + 1 }) | none => none).bind fun c => c.enginePlace s.env 0 (D + 0x200) 0
    let reads (s : State) (code : Option Nat) : Bool := takes s w && (match at_ s with
      | some (m, h, pa) => !m.badAt pa 128 && h != bridgeNode && decide (launchCheck (s.chip.vi 0) (m.homeRead s.env 0 pa 128) = code) && (match m.engineRead s.env 0 (D + 0x300) 64 with | some (m2, _) => m2.badAt 0x30300 64 == false | none => false)
      | none => false)
    let good := wQ w (launchRec 1 4097 0)
    reads good none = true ∧ reads (wQ w (launchRec 0 4097 0)) (some 7) = true ∧ reads (wQ w (launchRec 1 0 0)) none = true ∧ reads (wQ w (launchRec 1 4097 0xFFFF ++ [(0x30308, 2 ^ 52)])) none = true ∧
    (match at_ (wQ w (launchRec 1 4097 0) q0 {} fun c => { c with bad := [0x604] }) with | some (m, _, pa) => m.badAt pa 128 | none => false) = true ∧
    ((wQ [7 * 2 ^ 32 + 1, (D + 0x20000).toNat]).chip.enginePlace good.env 0 (D + 0x20000) 0).isNone = true ∧
    (wQ [7 * 2 ^ 32 + 1, (D + 0x20000).toNat]).chip.engineHeld good.env 0 (D + 0x20000) 0 = false ∧
    ((good.chip.vi 0).launches = [] ∧ (good.chip.vi 0).levels = [] ∧ (good.chip.home (sliceNode 0 0)).watches = [] ∧ good.chip.tags = [] ∧ good.mem.wf = true) := by
  decide +kernel
theorem witness_QueueEvents_records :
    let o : Owed := ⟨1, 0, 7, 9, none, 900, []⟩
    let m : HostMsg := ⟨0, 1, 0, 0, G, 5, 6⟩
    let s := wQ [] [] { q0 with owed := [o] }
    (s.chip.wr = [] ∧ (s.chip.queue 0).owed = [o] ∧ o.at_ ≤ s.now ∧ (s.chip.queue 0).err ≠ 0x2B ∧ (s.chip.queue 0).room = true ∧ ({ q0 with ctail := 64 } : Queue).room = false ∧ s.now < ({ o with at_ := 1001 } : Owed).at_) ∧
    (match s.chip.enginePlace s.env 0 (q0.cbase + w64 (16 * (q0.ctail.toNat % q0.csize))) 1 with | some (m, h, pa) => !m.badAt pa 16 && (m.home h).watches.isEmpty && (m.home h).waddrs.isEmpty | none => false) = true ∧
    (s.chip.enginePlace s.env 0 (D + 0x20000) 1).isNone = true ∧ s.chip.engineHeld s.env 0 (D + 0x20000) 1 = false ∧ (m.q = 0 ∧ s.chip.isOff 0 = false ∧ s.chip.idleGeneral 0 = some 0) ∧
    (let t := wQ [] [] q0 {} fun c => { c with ctxs := (List.range 6).map fun i => (i, ctx0) }
     t.chip.idleGeneral 0 = none ∧ (t.chip.core 0).hslots.length < 4 ∧ ((onCore { hslots := List.replicate 4 m } t.chip).core 0).hslots.length = 4) ∧ ({ q0 with hm := some m } : Queue).hm = some m := by
  decide +kernel
/-- A launch of two units in die 0, whose descriptors lie in page D, and the unit's copy being placed in context 0. -/
def lnch (l : List UnitRec) : Launch := { launchOf l with udbase := D, tilebase := D + 0x1000, codebase := G, geom := 4097, gx := 1 }
def rec0 (st : CpSt) : CopyRec := { copyRec with st := st }
/-- A descriptor of unit 0 of launch 1: no result, input 0 present or not; with a reserved bit set. -/
def descr (input : Bool) (bad : Nat := 0) : List (Nat × Nat) :=
  [(0x30000, 2 ^ 32), (0x30008, 2 ^ 51 + bad), (0x30010, 0xFFFFFFFF), (0x30018, (if input then 0 else 0xFFFFFFFF) + 2 ^ 32), (0x30020, 0xFFFFFFFF), (0x30028, 0xFFFFFFFF), (0x30030, 0xFFFFFFFF)]
def wD (l : List Launch) (m : List (Nat × Nat) := []) (f : Chip → Chip := id) : State :=
  world {} (fun c => f { c with ctxs := [(0, { resv := true })], vis := [(0, { en := true, quiesced := false, pten := true, ptbase := 0x10000, launches := l })] }) m
theorem witness_DispatchEvents :
    let u : URef := ⟨0, 1, 0, 0⟩
    let n (st : CpSt) : UnitRec := { idx := 0, copies := [rec0 st] }
    let l (st : CpSt) : Launch := lnch [n st]
    let s := wD [l .placing]
    let read (s : State) : Option (List Byte) := (s.chip.engineRead s.env 0 D 64).map (·.2)
    let fit (m : List (Nat × Nat)) (ok : Bool) (slots : List Nat) : Bool := match read (wD [l .placing] m) with
      | some d => descOk (l .placing) 0 d == ok && decide (({ n .placing with snap := d } : UnitRec).present = slots) | none => false
    let q : Req := { src := 0, part := 6, act := .pin u 0 1 }
    let r : CopyRec := { rec0 .pinning with due := [0], pinId := 6 }
    let p := wD [lnch [{ idx := 0, copies := [r] }]]
    let fresh := lnch []
    let die (d : Nat) (l : Launch) (v : Die := {}) := wD [l] [] fun c => { c with dies := [(d, v)] }
    (s.chip.wr = [] ∧ (s.chip.vi 0).launches = [l .placing] ∧ (l .placing).lid = u.lid ∧ (l .placing).remembered = true ∧ (l .placing).units = [n .placing] ∧ (n .placing).copies = [rec0 .placing] ∧ (l .placing).retired + 1 < (l .placing).total ∧
      s.chip.dies = [] ∧ (s.chip.core 0).hslots = [] ∧ (s.chip.ctx 0).resv = true ∧ (rec0 .placing).pins = [] ∧ (l .placing).st ≠ .drain) ∧
    (fit (descr false) true [] = true ∧ fit (descr true) true [0] = true ∧ fit (descr false (2 ^ 48)) false [] = true ∧ (read (wD [{ l .placing with udbase := D }] [(0x1C010, 0)])).isNone = true ∧
      (let t := wD [{ l .placing with udbase := D }] [(0x1C010, 0)]
       t.chip.engineHeld t.env 0 D 0 = false) ∧ ((wD []).chip.vi 0).copyOf u = none) ∧
    ((p.chip.pinWaiter q).isSome = true ∧ r.due = [0] ∧ r.pinId = q.part ∧ r.st = .pinning ∧ s.chip.pinWaiter q = none ∧ isGlobal (l .pinning).tilebase = true ∧ isGlobal (2 ^ 48 : W64) = false) ∧
    (let t := wD [fresh]
     t.chip.vis = [(0, t.chip.vi 0)] ∧ fresh.prio ≤ 7 ∧ (t.chip.die 0).splitPend = false ∧ (t.chip.die 0).placeFrom ≤ t.now ∧ (t.chip.die 0).backups = [] ∧ fresh.nextUnit 0 = some 0 ∧ fresh.units = [] ∧
       t.chip.chooseCore 0 fresh (fun _ => true) = some (1, 0) ∧ (t.chip.core 0).heldLoads = [] ∧ fresh.st = .eligible ∧ fresh.gang = false ∧ ({ fresh with st := .drain } : Launch).st = .drain ∧ (die 0 fresh { splitPend := true }).chip.placement t.env 0 = none) ∧
    (let t := die 0 { fresh with home := 1 } { reports := [(1, (1, 2))] }
     t.chip.canPlace 0 = false ∧ (t.chip.idleGeneral 0).isSome = true ∧ (t.chip.die 0).stealOrder 0 = [1] ∧ t.chip.stealBlock 1 = some ({ fresh with home := 1 }, 0) ∧ (die 0 fresh).chip.canPlace 0 = true) ∧
    (let g := { fresh with gang := true }
     (wD [g]).chip.nextGang = some g ∧ (wD [fresh]).chip.nextGang = none ∧ (wD [fresh]).chip.gangReady = none ∧
       (let d : Launch := { lnch [n .placing] with gang := true, st := .drain, nextIn := [(0, 8)] }
        (wD [d]).chip.gangReady = some d)) := by
  decide +kernel
theorem witness_HedgeEvents :
    let b : BReq := { u := ⟨0, 1, 0, 0⟩, est := 5, die := 0, until_ := 0, serial := 3 }
    let n : UnitRec := { idx := 0, copies := [rec0 .resident] }
    let w (v : Vi) (n : UnitRec) (f : Chip → Chip := id) := world { ctx0 with unit := some { unit0 with hedged := false } } fun c => f { c with vis := [(0, { v with launches := [lnch [n]] })] }
    let l := lnch [n]
    let s := w { level := 9 } n
    let j := backJob 3 2 l n
    let asked : UnitRec := { n with devReq := some b, granted := true }
    let k : ClassE := ⟨0, 0, [], [], 0⟩
    (s.chip.wr = [] ∧ (s.chip.vi 0).launches = [l] ∧ l.lid = b.u.lid ∧ l.st ≠ .complete ∧ l.remembered = true ∧ l.units = [n] ∧ n.idx = b.u.idx ∧ ((world ctx0).chip.vi 0).findUnit b.u = none ∧ n.settledFor l = false ∧
      ({ n with sealed := true } : UnitRec).settledFor l = true) ∧
    (((w {} n).chip.vi 0).level < b.est ∧ b.est ≤ (s.chip.vi 0).level ∧ bit (0 : W64).toNat 27 = false ∧ bit (2 ^ 27 : W64).toNat 27 = true ∧ bits (2 ^ 27 : W64).toNat 44 4 = s.chip.group % 16 ∧ bits (2 ^ 27 + 2 ^ 44 : W64).toNat 44 4 ≠ s.chip.group % 16 ∧
      bit (2 ^ 26 : W64).toNat 26 = true ∧ (∀ r ∈ n.copies, r.live = true → r.dev = none → r.die ≠ 1)) ∧
    (b.job = none ∧ ((world ctx0).chip.vi 0).copyOf b.u = none ∧ n.copies = [rec0 .resident] ∧ (rec0 .resident).copy = b.u.copy ∧ n.settled = false ∧ ({ b with job := some j } : BReq).job = some j ∧ b.note = .ask ∧ b.u.lid < 2 ^ 32 ∧ asked.devReq = some b ∧ n.devReq = none ∧ ((w {} asked).chip.vi 0).launches = [lnch [asked]] ∧
      ({ b with note := .placed 4 } : BReq).note = .placed 4 ∧ n.mayAsk l (1 + 2 ^ 16) = true ∧
      ((w {} n fun c => { c with dies := [(0, { backups := [b] })] }).chip.die 0).backups = [b] ∧ (s.chip.die 0).backups = []) ∧
    ((world {}).chip.ctxs.all (fun p => p.2.st == .idle) = true ∧ s.chip.ctxs.map (·.1) = [0] ∧ (s.chip.ctx 0).kind = .unit ∧ (s.chip.ctx 0).ending = none ∧ ((s.chip.ctx 0).unit.map (·.u)) = some b.u ∧ (s.chip.ctx 0).st = .ready ∧
      (rec0 .resident).xk = 0 ∧ (rec0 .resident).lastWork = none ∧ ({ rec0 .resident with lastWork := some 0 } : CopyRec).lastWork = some 0 ∧ ({ n with hold := some 1 } : UnitRec).hold = some 1 ∧ n.hold = none ∧ n.mayAsk l 0 = false ∧
      n.mayAsk l (1 + 2 ^ 16) = true ∧ behind { k with rate := [0, 64], total := [64] } (2 ^ 42 - 2 ^ 32) [0, 0, 0, 0] = true ∧ (estimate { k with rate := [0, 64], total := [64] } 0).isSome = true) := by
  decide +kernel
theorem witness_PowerEvents :
    let s := w0
    let row (w : Row) := world ctx0 fun c => { c with rows := [(0, w)] }
    let pc (p : PCore) := world ctx0 fun c => { c with pcores := [(0, p)] }
    let y : Ctx := { ctx0 with mop := some { mo 0 with left := 32 }, ops := [{ id := 4, kind := .mma, ctr := .mx }] }
    let run := world y fun c => { c with ctxs := [(0, y), (8, y)], cores := [(0, { mxNow := some (0, 0) }), (1, { mxNow := some (0, 0) })] }
    let expiry : Flight := ⟨0xFFFFF, 0xFFFFF, .rsp, 1200, .yieldExpiry 0 1⟩
    (s.chip.wr = [] ∧ 55 ≤ bits (2 ^ 32 * 55 : W64).toNat 32 8 ∧ bits (2 ^ 32 * 85 : W64).toNat 32 8 ≤ 85 ∧ bits (2 ^ 32 * 54 : W64).toNat 32 8 < 55 ∧ 85 < bits (2 ^ 32 * 86 : W64).toNat 32 8) ∧
    (bit (0 : W64).toNat 14 = false ∧ (s.chip.pcore 0).off = false ∧ bit (2 ^ 14 : W64).toNat 14 = true ∧ s.chip.canOff 0 = false ∧ (world {}).chip.canOff 0 = true ∧ ((pc { off := true }).chip.pcore 0).off = true ∧ (s.chip.ctxs.map (·.1)).Nodup) ∧
    ((∀ q ∈ rowCores 0, (s.chip.pcore q).hop = false) ∧ ((row { stepping := true }).chip.row 0).stepping = true ∧ (s.chip.row 0).stepping = false ∧ (s.chip.row 0).vcur = s.chip.vTarget 0 ∧ ((row { vreq := 80 }).chip.row 0).vcur ≠ (row { vreq := 80 }).chip.vTarget 0) ∧
    (((pc { hop := true }).chip.pcore 0).hop = true ∧ (pc { dreq := 1 }).chip.hopDue 0 = true ∧ s.chip.hopDue 0 = false ∧ 0 ∈ s.chip.busyCtxs 0 ∧
      (let t := world ctx0 fun c => { c with pcores := [(0, { dcur := 1 })], rows := [(0, { vcur := 85, vreq := 85 })] }
       t.chip.hopDue 0 = true ∧ t.chip.wanted 0 < 1) ∧
      ((world ctx0 fun c => { c with pcores := [(0, { dreq := 1 })], net := [expiry] }).chip.net = [expiry] ∧ s.chip.logical 0 = 0 ∧ s.now < 1200)) ∧
    ((s.chip.row 0).droopUntil ≤ s.now ∧ s.now < ((row { droopUntil := 1001 }).chip.row 0).droopUntil) ∧
    ((List.range 6144).all (fun q => q / 16 == 0 || run.chip.demand q == 0) = true ∧ (∀ i < 16, ∀ j < 16, run.chip.logical i = run.chip.logical j → i = j) ∧
      (∀ i < 16, 0 < run.chip.demand i → i < 2 ∧ (run.chip.core (run.chip.logical i)).mxNow = some (0, 0) ∧ (run.chip.ctx (run.chip.logical i * 8)).mxWork = some 0 ∧
        (run.chip.ctx (run.chip.logical i * 8)).mop = some { mo 0 with left := 32 } ∧ run.chip.demand i < 32) ∧
      max 1 (run.chip.die 0).dwell ≤ run.now / 4 - (run.chip.row 0).since ∧ (run.chip.row 0).lvl < (run.chip.row 0).eceil ∧ run.chip.power.staggerUntil ≤ run.now ∧
      (run.chip.die 0).level (run.chip.row 0).lvl < ((List.range 16).map run.chip.demand).sum ∧ 0 < ((row { lvl := 1 }).chip.row 0).lvl ∧ (∀ i < 16, (row { lvl := 1 }).chip.demand i = 0) ∧
      (run.chip.pcore 0).off = false ∧ (run.chip.pcore 0).hop = false ∧ run.cx.stopReq = false ∧ run.chip.endReason 0 = none ∧ ({ mo 0 with seg := (mo 0).ns } : MOp).ns ≤ ({ mo 0 with seg := (mo 0).ns } : MOp).seg + 1) ∧
    (bit (2 ^ 15 : W64).toNat 15 = true ∧ bit s.chip.power.cfg.toNat 15 = false ∧ (thermalCore 21 20 5 { thr := 2 }).thr = 3 ∧ (thermalCore 20 20 0 { thr := 2 }).hot = false) ∧
    (({ ctx0 with st := .halt } : Ctx).st = .halt ∧ s.cx.mop = none ∧ s.cx.hasRefused = false ∧ s.cx.repair = none ∧ s.chip.power.emerg = false ∧ s.chip.hopping 0 = false ∧ (pc { hop := true }).chip.hopping 0 = true ∧
      s.cx.upcallDue = false ∧ s.cx.hbudgetDue s.now = false ∧ s.cx.pc.toNat % 4 = 0 ∧
      (let t := world { ctx0 with st := .halt, haltPwr := true } fun c => { c with power := { emerg := true } }
       bit (2 ^ 31 : W64).toNat 31 = true ∧ t.chip.power.emergCond = false ∧ t.chip.power.emerg = true ∧ t.chip.ctxs.length = 1 ∧ t.cx.haltCtl = false ∧ t.cx.replayDue = false)) := by
  decide +kernel
/-- A throttle that reaches 3 whatever the free temperature is: the premise of the automatic SLOW can be met. -/
theorem witness_PowerEvents_reach (temp : Nat) : (thermalCore temp 20 0 { thr := 4 }).thr = 3 ∧ ({ thr := 4 } : PCore).thr ≠ 3 := by
  unfold thermalCore
  by_cases h : 20 < temp
  · simp [h]
  · have : temp ≤ 20 := by omega
    simp [h, this]
theorem witness_PortAndTrustEvents :
    let s := w0
    let p (q : Port) := world ctx0 fun c => { c with ports := [(1, q)] }
    (s.chip.wr = [] ∧ (s.chip.port 1).up = false ∧ ((p { up := true }).chip.port 1).rxKeys = [] ∧ ((p { up := true, rxKeys := [0] }).chip.port 1).rxKeys ≠ [] ∧ ((p { up := true, nakRow := 14 }).chip.port 1).nakRow < 15 ∧
      15 ≤ ((p { up := true, nakRow := 15 }).chip.port 1).nakRow) ∧
    (let q := (p { ctr := 4, acked := 1, rolling := 1, oldSlotLast := 3 }).chip.port 1
     q.acked < 3 ∧ 3 ≤ q.ctr ∧ q.rolling = 1 ∧ q.oldSlotLast ≤ 3 ∧ 2 < q.oldSlotLast ∧ q.acked < 2 ∧ (s.chip.port 1).rolling ≠ 1 ∧ 5 > q.ctr) ∧
    (((p { keyed := true, ctr := 1 }).chip.port 1).keyed = true ∧ ((p { keyed := true, ctr := 1 }).chip.port 1).acked < 1 ∧ (s.chip.port 1).keyed = false ∧ ((p { keyed := true, rxKeys := [0] }).chip.port 1).rxKeys = [0] ∧
      ((p { keyed := true, rxKeys := [0, 1] }).chip.port 1).rxKeys = [0, 1] ∧ ((p { rolling := 2 }).chip.port 1).rolling = 2 ∧
      ((p { keyed := true, rolling := 3, ctr := 1 }).chip.port 1).rolling = 3) ∧
    (s.chip.tan.stage = 3 ∧ ({} : Tantalum).stage ≠ 3 ∧ ({} : Tantalum).fail = 0 ∧ ({ fail := 1 } : Tantalum).fail ≠ 0) ∧
    (s.chip.dumpValid = false ∧ bits s.chip.dumpBase.toNat 27 13 * 2 ^ 27 = 0 ∧ (world ctx0 fun c => { c with dumpValid := true }).chip.dumpValid = true ∧ bits (2 ^ 27 : W64).toNat 27 13 * 2 ^ 27 ≠ 0 ∧ s.mem.wf = true) := by
  decide +kernel
end Sys2Proof.Tests
end

section
/-! SUPPORT. The ends of an instruction that transfers control or traps, and the rules of the six branches (R140 to R142). -/
namespace Sys2Proof.Machine
open Sys2Proof

/-- An instruction that reads and writes fewer scalar registers runs where one of more does (R104). -/
theorem State.canRun.mono {s : State} {pfx : Bool} {l m : List Nat} (h : s.canRun pfx { x := l }) (hm : m ⊆ l) : s.canRun pfx { x := m } := by
  obtain ⟨hw, hf, hb, ha, hc⟩ := h
  refine ⟨hw, hf, ?_, ha, hc⟩
  simp only [Ctx.blocked, Bool.or_eq_false_iff, List.any_eq_false] at hb ⊢
  obtain ⟨⟨hx, hv⟩, ht⟩ := hb
  exact ⟨⟨fun n hn => hx n (hm hn), hv⟩, ht⟩

/-- An instruction that nothing holds leads to the state in which its effect has settled. -/
theorem run_settles {s : State} {i : Instr} {u : Use} {body : Env → Chip → Nat → Ctx → Fate} (h : s.canRun false u)
    (hv : i.privileged = false) : run s (fun e c => issue e c i u body) = .next (commit s (s.settles (body s.env s.at_ s.chip.cur s.cx))) :=
  congrArg (fun c => Host.Outcome.next (commit s c)) (issue_open h (by simp) (by simp [hv]))

@[simp] theorem State.ctx_at (s : State) : s.at_.ctx s.chip.cur = s.cx := Chip.ctx_setCtx_self _ _ _
@[simp] theorem State.modCtx_at_id (s : State) : s.at_.modCtx s.chip.cur id = s.at_ := Chip.modCtx_setCtx _ _ _ _

/-- A transfer of control whose only other effect is `f` on the record of its context (R146). -/
theorem settles_jump (s : State) (f : Ctx → Ctx) (t : W64) : commit s (s.settles (.jump (s.at_.modCtx s.chip.cur f) t)) = s.jumps f t := by
  simp [State.settles, State.jumps, State.at_]
/-- A trap without effect (R374). -/
theorem settles_trap (s : State) (code : Nat) (tval : W64) : commit s (s.settles (.trap code tval)) = s.traps code tval := by
  simp [State.settles, State.traps, Chip.trapHere]

/-- An immediate of an instruction word, sign-extended (R110). -/
@[simp] theorem sxt_toNat {n : Nat} (i : BitVec n) : sxt n i.toNat = i.signExtend 64 := by simp [sxt]

/-- A branch whose condition holds jumps, and writes no register (R142). -/
theorem branch_taken {s : State} {i : Instr} {a b : BitVec 5} {o : BitVec 16} {f : W64 → W64 → Bool}
    (h : s.canRun false { x := [a.toNat, b.toNat] }) (hv : i.privileged = false) (hf : f (s.cx.getX a.toNat) (s.cx.getX b.toNat) = true) :
    branch i a b o f s = .next (s.jumps id (s.cx.pc + 4 * o.signExtend 64)) := by
  rw [branch, run_settles h hv, if_pos hf, ← settles_jump, State.modCtx_at_id, sxt_toNat]
/-- A branch whose condition fails goes on, and writes no register (R142). -/
theorem branch_passed {s : State} {i : Instr} {a b : BitVec 5} {o : BitVec 16} {f : W64 → W64 → Bool}
    (h : s.canRun false { x := [a.toNat, b.toNat] }) (hn : s.nextOk) (hv : i.privileged = false)
    (hf : ¬ f (s.cx.getX a.toNat) (s.cx.getX b.toNat) = true) : branch i a b o f s = .next (s.retires id) := by
  rw [branch, run_settles h hv, if_neg hf, ← settles_retire (f := id) hn, State.modCtx_at_id]
/-- A branch jumps exactly where what its comparison decides holds (R142). -/
theorem branch_goes {s : State} {i : Instr} {a b : BitVec 5} {o : BitVec 16} {f : W64 → W64 → Bool} {p : Prop}
    (h : s.canRun false { x := [a.toNat, b.toNat] }) (hn : s.nextOk) (hv : i.privileged = false)
    (hf : f (s.cx.getX a.toNat) (s.cx.getX b.toNat) = true ↔ p) :
    (p → branch i a b o f s = .next (s.jumps id (s.cx.pc + 4 * o.signExtend 64))) ∧ (¬p → branch i a b o f s = .next (s.retires id)) :=
  ⟨fun hp => branch_taken h hv (hf.2 hp), fun hp => branch_passed h hn hv (mt hf.1 hp)⟩

/-- JAL writes the link and jumps (R140). -/
theorem execJal_jumps {s : State} {d : BitVec 5} (f : BitVec 21) (h : s.canRun false { x := [d.toNat] }) :
    execJal d f s = .next (s.jumps (fun x => x.setX d.toNat (s.cx.pc + 4)) (s.cx.pc + 4 * f.signExtend 64)) := by
  rw [execJal, run_settles h rfl, settles_jump, sxt_toNat]
/-- JALR to an aligned target writes the link and jumps (R141). -/
theorem execJalr_jumps {s : State} {d a : BitVec 5} {o : BitVec 16} (h : s.canRun false { x := [d.toNat, a.toNat] })
    (ht : (s.cx.getX a.toNat + o.signExtend 64).toNat % 4 = 0) :
    execJalr d a o s = .next (s.jumps (fun x => x.setX d.toNat (s.cx.pc + 4)) (s.cx.getX a.toNat + o.signExtend 64)) := by
  rw [execJalr, run_settles h rfl, sxt_toNat, if_neg (not_not.2 ht), settles_jump]
/-- JALR to a misaligned target traps MISPC, without effect (R141). -/
theorem execJalr_traps {s : State} {d a : BitVec 5} {o : BitVec 16} (h : s.canRun false { x := [d.toNat, a.toNat] })
    (ht : (s.cx.getX a.toNat + o.signExtend 64).toNat % 4 ≠ 0) :
    execJalr d a o s = .next (s.traps 0x03 (s.cx.getX a.toNat + o.signExtend 64)) := by
  rw [execJalr, run_settles h rfl, sxt_toNat, if_pos ht, settles_trap]

/-- Settles O14: JAL and JALR by the end of their transfer or trap, the six branches by what their comparison decides. -/
theorem jumpsAndBranches : Obligations.JumpsAndBranches := by
  intro s d a b o f h hn u v t goes
  have hd : s.canRun false { x := [d.toNat] } := h.mono (by simp)
  have hda : s.canRun false { x := [d.toNat, a.toNat] } := h.mono (by simp)
  have hab : s.canRun false { x := [a.toNat, b.toNat] } := h.mono (by simp)
  refine ⟨execJal_jumps f hd, execJalr_jumps hda, execJalr_traps hda, ?beq, ?bne, ?blt, ?bge, ?bltn, ?bgen⟩
  case beq => exact branch_goes hab hn rfl beq_iff_eq
  case bne => exact branch_goes hab hn rfl bne_iff_ne
  case blt => exact branch_goes hab hn rfl BitVec.slt_iff_toInt_lt
  case bge => exact branch_goes (f := fun u v => v.sle u) hab hn rfl BitVec.sle_iff_toInt_le
  case bltn => exact branch_goes hab hn rfl BitVec.ult_iff_toNat_lt
  case bgen => exact branch_goes (f := fun u v => v.ule u) hab hn rfl BitVec.ule_iff_toNat_le

end Sys2Proof.Machine
end

section
/-! SUPPORT. Division and its boundary cases (R136), and the bits of BEXT and BINS (R137). -/
namespace Sys2Proof.Machine
open Sys2Proof

/-- The register form writes the value of its two sources (R134). -/
theorem alu_retires {s : State} {i : Instr} {d a b : BitVec 5} {f : W64 → W64 → W64}
    (h : s.canRun false { x := [d.toNat, a.toNat, b.toNat] }) (hn : s.nextOk) (hv : i.privileged = false) :
    alu i d a b f s = .next (s.retires fun x => x.setX d.toNat (f (s.cx.getX a.toNat) (s.cx.getX b.toNat))) :=
  scalar_retires h hn hv

/-! ### Division -/

/-- Division by zero (R136). -/
theorem div_by_zero {u v : W64} (h : v = 0) : divS u v = BitVec.ofInt 64 (-1) ∧ divN u v = BitVec.ofInt 64 (-1) ∧ remS u v = u ∧ remN u v = u := by
  have e : BitVec.allOnes 64 = BitVec.ofInt 64 (-1) := by decide
  simp only [divS, divN, remS, remN, if_pos h, e, and_self]
/-- The unsigned quotient and remainder of the model are those of bit vectors. -/
theorem divN_eq_udiv {u v : W64} (h : v ≠ 0) : divN u v = u / v := by
  rw [divN, if_neg h, w64, ← BitVec.toNat_udiv, BitVec.ofNat_toNat, BitVec.setWidth_eq]
theorem remN_eq_umod {u v : W64} (h : v ≠ 0) : remN u v = u % v := by
  rw [remN, if_neg h, w64, ← BitVec.toNat_umod, BitVec.ofNat_toNat, BitVec.setWidth_eq]
/-- The signed quotient is that of bit vectors, which also wraps where it overflows, and so is the remainder. -/
theorem divS_eq_sdiv {u v : W64} (h : v ≠ 0) : divS u v = u.sdiv v := by
  rw [divS, if_neg h]
  exact BitVec.eq_of_toInt_eq (by rw [BitVec.toInt_ofInt, BitVec.toInt_sdiv])
theorem remS_eq_srem {u v : W64} (h : v ≠ 0) : remS u v = u.srem v := by
  rw [remS, if_neg h, ← BitVec.toInt_srem, BitVec.ofInt_toInt]
/-- Unsigned division with remainder. -/
theorem divN_remN {u v : W64} (h : v ≠ 0) : u.toNat = v.toNat * (divN u v).toNat + (remN u v).toNat ∧ (remN u v).toNat < v.toNat := by
  have hpos : 0 < v.toNat := Nat.pos_of_ne_zero fun e => h (BitVec.eq_of_toNat_eq e)
  rw [divN_eq_udiv h, remN_eq_umod h, BitVec.toNat_udiv, BitVec.toNat_umod]
  exact ⟨(Nat.div_add_mod _ _).symm, Nat.mod_lt _ hpos⟩
/-- The one quotient that overflows (R136). -/
theorem divS_overflow {u v : W64} (hu : u.toInt = -2 ^ 63) (hv : v.toInt = -1) : divS u v = 0x8000000000000000 ∧ remS u v = 0 := by
  obtain rfl : u = BitVec.intMin 64 := BitVec.eq_of_toInt_eq (hu.trans (by decide))
  obtain rfl : v = -1 := BitVec.eq_of_toInt_eq (hv.trans (by decide))
  decide
/-- The remainder of truncated division is zero or has the sign of the dividend. -/
theorem tmod_sign (a b : Int) : a.tmod b = 0 ∨ (a.tmod b < 0 ↔ a < 0) := by
  have hs := Int.sign_tmod a b
  by_cases hd : b ∣ a
  · exact .inl (Int.tmod_eq_zero_of_dvd hd)
  · rw [if_neg hd] at hs
    exact .inr (by rw [← Int.sign_eq_neg_one_iff_neg, hs, Int.sign_eq_neg_one_iff_neg])
/-- Signed division with remainder, truncated, where it does not overflow (R136). -/
theorem divS_remS {u v : W64} (h : v ≠ 0) (ho : ¬(u.toInt = -2 ^ 63 ∧ v.toInt = -1)) :
    u.toInt = v.toInt * (divS u v).toInt + (remS u v).toInt ∧ (remS u v).toInt.natAbs < v.toInt.natAbs ∧
      ((remS u v).toInt = 0 ∨ ((remS u v).toInt < 0 ↔ u.toInt < 0)) := by
  have hv : v.toInt ≠ 0 := fun e => h (BitVec.eq_of_toInt_eq e)
  have hne : u ≠ BitVec.intMin 64 ∨ v ≠ -1#64 := not_and_or.1 fun ⟨hmin, hneg⟩ => ho (by rw [hmin, hneg]; decide)
  rw [divS_eq_sdiv h, remS_eq_srem h, BitVec.toInt_sdiv_of_ne_or_ne _ _ hne, BitVec.toInt_srem, Int.natAbs_tmod]
  exact ⟨(Int.mul_tdiv_add_tmod _ _).symm, Nat.mod_lt _ (Int.natAbs_pos.2 hv), tmod_sign _ _⟩

/-! ### Bit fields -/

/-- The field of R137: its position, and the bits below its length. -/
@[simp] theorem fieldPos_eq (v : W64) : fieldPos v = v.toNat % 64 := by simp [fieldPos, bits]
@[simp] theorem testBit_fieldMask (v : W64) (j : Nat) : (fieldMask v).testBit j = decide (j < v.toNat / 64 % 64 + 1) := by
  simp [fieldMask, bits]
@[simp] theorem getLsbD_w64 (n j : Nat) : (w64 n).getLsbD j = (decide (j < 64) && n.testBit j) := BitVec.getLsbD_ofNat ..

/-- BEXT takes the bits of the field, from its position up (R137). -/
theorem getLsbD_bextOp (u v : W64) {j : Nat} (hj : j < 64) :
    (bextOp u v).getLsbD j = (decide (j < v.toNat / 64 % 64 + 1) && u.getLsbD (v.toNat % 64 + j)) := by
  simp only [bextOp, BitVec.getLsbD_and, getLsbD_w64, hj, decide_true, Bool.true_and, fieldPos_eq, testBit_fieldMask,
    Nat.testBit_div_two_pow, BitVec.testBit_toNat, Nat.add_comm j]
  exact Bool.and_comm _ _
/-- BINS puts the low bits of its source in the field, and keeps the others of the old destination (R137). -/
theorem getLsbD_binsOp (c u v : W64) {j : Nat} (hj : j < 64) :
    (binsOp c u v).getLsbD j =
      if v.toNat % 64 ≤ j ∧ j < v.toNat % 64 + (v.toNat / 64 % 64 + 1) then u.getLsbD (j - v.toNat % 64) else c.getLsbD j := by
  have hin : (j - v.toNat % 64 < v.toNat / 64 % 64 + 1) ↔ j < v.toNat % 64 + (v.toNat / 64 % 64 + 1) := by omega
  have hsub : j - v.toNat % 64 < 64 := by omega
  simp only [binsOp, BitVec.getLsbD_or, BitVec.getLsbD_and, BitVec.getLsbD_not, getLsbD_w64, Nat.testBit_mul_two_pow, fieldPos_eq,
    testBit_fieldMask, BitVec.testBit_toNat, hj, hsub, hin, decide_true, Bool.true_and]
  by_cases hlo : v.toNat % 64 ≤ j
  · by_cases hhi : j < v.toNat % 64 + (v.toNat / 64 % 64 + 1) <;> simp [hlo, hhi]
  · simp [hlo]

/-- Settles O11: each instruction writes the value of its operation, whose boundary cases, division identity or bits are the lemmas above. -/
theorem divisionAndBitFields : Obligations.DivisionAndBitFields := by
  refine ⟨?division, ?fields⟩
  case division =>
    intro s d a b h hn u v
    exact ⟨divS u v, divN u v, remS u v, remN u v, alu_retires h hn rfl, alu_retires h hn rfl, alu_retires h hn rfl, alu_retires h hn rfl,
      div_by_zero, divN_remN, fun ho => divS_overflow ho.1 ho.2, fun hv => divS_remS hv.1 hv.2⟩
  case fields =>
    intro s d a b h hn u v pos len
    exact ⟨⟨_, alu_retires h hn rfl, fun j hj => getLsbD_bextOp _ _ hj⟩, ⟨_, scalar_retires h hn rfl, fun j hj => getLsbD_binsOp _ _ _ hj⟩⟩

end Sys2Proof.Machine
end
